-- ==== Sys2Proof/Word.lean ====
section
/-! DEFINITION. The two word types of the frame unit: bytes on the streams and in the buffers (R3 `BYTE_W`),
16-bit sums, counters and channels (R3 `SUM_W`, `SCAN_W`). -/

namespace Sys2Proof

/-- One byte; bit 7 is the most significant (R3, spec/00_scope.md section 6). -/
abbrev Byte := BitVec 8

/-- A 16-bit quantity, always unsigned (R3, R80). -/
abbrev Half := BitVec 16

end Sys2Proof
end

