-- ==== Sys2Proof/Config.lean ====
section
/-! DEFINITION. The constants of R3, and the type of the one open parameter `SYNC_MAX_BYTES`. -/

namespace Sys2Proof.Config

/-- First marker byte (R3 `MARKER`, R72). -/
abbrev marker0 : Byte := 0x42
/-- Second marker byte (R3 `MARKER`, R72). -/
abbrev marker1 : Byte := 0x4D
/-- Bytes of a data frame (R3 `FRAME_LEN`, R71). -/
abbrev frameLen : Nat := 32
/-- Bytes in the frame sum, offsets `SUM_FIRST` = 0 to `SUM_LAST` = 29 (R3, R131). -/
abbrev sumLen : Nat := 30
/-- Offset of the compared checksum byte (R3 `CK_OFFSET`, R132). -/
abbrev ckOffset : Nat := 31
/-- Number of channels (R3 `N_CHANNELS`, R140). -/
abbrev nChannels : Nat := 12
/-- Offset of channel 0 (R3 `CH_BASE`, R140). -/
abbrev chBase : Nat := 4
/-- Bytes of a command frame (R3 `CMD_LEN`, R76). -/
abbrev cmdLen : Nat := 7
/-- Bytes of an acknowledgment (R3 `ACK_LEN`, R79). -/
abbrev ackLen : Nat := 8

end Sys2Proof.Config

namespace Sys2Proof

/-- `SYNC_MAX_BYTES` (R3): 0 means no bound, else a number from 2 to 65535; the type admits exactly these.
It is an argument of the model: a field of State that no step writes, so that a statement about every state holds
for every value (log entry 1). -/
inductive ScanBound where
  /-- `SYNC_MAX_BYTES = 0`: the scan is unbounded, as in the original. -/
  | unbounded
  /-- `SYNC_MAX_BYTES = extra + 2`. -/
  | atMost (extra : Fin 65534)
  deriving DecidableEq, Repr

/-- The number `SYNC_MAX_BYTES` itself (R3). -/
def ScanBound.toNat : ScanBound → Nat
  | .unbounded => 0
  | .atMost extra => extra.val + 2

end Sys2Proof
end

