-- ==== Sys2Proof/Syntax.lean ====
section
/-! DEFINITION. The instruction set: one constructor per row of spec/opcode_table.json (R70, R84). -/

namespace Sys2Proof

/-- The 25 rows of the table. The nine operations and the seven reserved codes are 4-bit words without operands
(R83, R84, R85); the strobes carry no word (R84); the wire formats are `CMD7` (R78), `DATA32` (R71) and `ACK8` (R79),
whose unconstrained fields are the operands. -/
inductive Instr where
  /-- `0x1` find the start marker (R100). -/
  | sync
  /-- `0x2` take the 30 bytes after the marker (R107). -/
  | collect
  /-- `0x3` check the frame checksum (R130). -/
  | validate
  /-- `0x4` take 8 acknowledgment bytes (R112). -/
  | drain
  /-- `0x8` emit the sleep command (R155). -/
  | txSleep
  /-- `0x9` emit the wake command (R156). -/
  | txWake
  /-- `0xA` emit the passive-mode command (R157). -/
  | txPassive
  /-- `0xB` emit the active-mode command (R158). -/
  | txActive
  /-- `0xC` emit the request-read command (R159). -/
  | txRead
  /-- `0x0` reserved (R85, R172). -/
  | reserved0
  /-- `0x5` reserved (R85, R172). -/
  | reserved5
  /-- `0x6` reserved (R85, R172). -/
  | reserved6
  /-- `0x7` reserved (R85, R172). -/
  | reserved7
  /-- `0xD` reserved (R85, R172). -/
  | reservedD
  /-- `0xE` reserved (R85, R172). -/
  | reservedE
  /-- `0xF` reserved (R85, R172). -/
  | reservedF
  /-- The Abort strobe (R170, R171). -/
  | abort
  /-- The Reset strobe (R230). -/
  | reset
  /-- Wire command frame `42 4D E4 00 00 01 73` (R78, R155). -/
  | cmdSleep
  /-- Wire command frame `42 4D E4 00 01 01 74` (R78, R156). -/
  | cmdWake
  /-- Wire command frame `42 4D E1 00 00 01 70` (R78, R157). -/
  | cmdSetModePassive
  /-- Wire command frame `42 4D E1 00 01 01 71` (R78, R158). -/
  | cmdSetModeActive
  /-- Wire command frame `42 4D E2 00 00 01 71` (R78, R159). -/
  | cmdRequestRead
  /-- Wire data frame with the fields of R71; `chans` holds channels 0 to 11 in order. -/
  | dataFrame (lenH lenL : Byte) (chans : List Half) (rsvH rsvL ckH ckL : Byte)
  /-- Wire acknowledgment, bytes `A0` to `A7` in order of arrival (R79). -/
  | ack (bytes : List Byte)
  deriving DecidableEq, Repr

end Sys2Proof
end

