-- ==== Sys2Proof/WellFormed.lean ====
section
/-! DEFINITION. Which terms of `Instr` the formats admit (R70: every format has one fixed length). -/

namespace Sys2Proof

/-- A data frame carries exactly twelve channels (R71) and an acknowledgment exactly eight bytes (R79); every other
row has no operand. -/
def Instr.wellFormed : Instr → Bool
  | .sync => true
  | .collect => true
  | .validate => true
  | .drain => true
  | .txSleep => true
  | .txWake => true
  | .txPassive => true
  | .txActive => true
  | .txRead => true
  | .reserved0 => true
  | .reserved5 => true
  | .reserved6 => true
  | .reserved7 => true
  | .reservedD => true
  | .reservedE => true
  | .reservedF => true
  | .abort => true
  | .reset => true
  | .cmdSleep => true
  | .cmdWake => true
  | .cmdSetModePassive => true
  | .cmdSetModeActive => true
  | .cmdRequestRead => true
  | .dataFrame _ _ chans _ _ _ _ => chans.length == Config.nChannels
  | .ack bytes => bytes.length == Config.ackLen

end Sys2Proof
end

