-- ==== Sys2Proof/Decode.lean ====
section
/-! DEFINITION. Decoding the formats of R70 and encoding into them, with the byte-order helpers of R80 and R81.
A frame is told from another by where it stands and by its length alone (R70, R88), so the decoder is given the
channel the bits came on. -/

namespace Sys2Proof

/-- Where an instruction comes from: the 4-bit operation port (R83), one of the two strobe wires (R84), or a wire
format of R70. -/
inductive Channel where
  | op
  | abort
  | reset
  | cmd
  | data
  | ack
  deriving DecidableEq, Repr

/-- Why bits are no instruction of the table. -/
inductive DecodeError where
  /-- Not the channel's fixed length (R70). -/
  | wrongLength
  /-- An operation word has four bits; the byte given has a bit above them (R83). -/
  | notFourBits
  /-- A data frame begins with the marker (R71). -/
  | noMarker
  /-- A command frame is one of the five of R78 (R82(c)). -/
  | unknownCommand
  deriving DecidableEq, Repr

/-- `be16(hi, lo)`: the value whose more significant byte is `hi` (R80). -/
def be16 (hi lo : Byte) : Half := hi.setWidth 16 * 256 + lo.setWidth 16

/-- `v[15:8]` (R81). -/
def hiByte (v : Half) : Byte := v.extractLsb' 8 8

/-- `v[7:0]` (R81). -/
def loByte (v : Half) : Byte := v.extractLsb' 0 8

/-- Adjacent bytes read as big-endian values, in order (R43, R80). -/
def pairUp : List Byte → List Half
  | hi :: lo :: rest => be16 hi lo :: pairUp rest
  | _ => []

/-- Values written as adjacent bytes, the more significant first (R43, R81). -/
def splitUp : List Half → List Byte
  | [] => []
  | v :: rest => hiByte v :: loByte v :: splitUp rest

/-- R78, SLEEP: the whole frame in stream order, as the table of R78 lists it. -/
def sleepFrame : List Byte := [0x42, 0x4D, 0xE4, 0x00, 0x00, 0x01, 0x73]
/-- R78, WAKE. -/
def wakeFrame : List Byte := [0x42, 0x4D, 0xE4, 0x00, 0x01, 0x01, 0x74]
/-- R78, SET_MODE_PASSIVE. -/
def passiveFrame : List Byte := [0x42, 0x4D, 0xE1, 0x00, 0x00, 0x01, 0x70]
/-- R78, SET_MODE_ACTIVE. -/
def activeFrame : List Byte := [0x42, 0x4D, 0xE1, 0x00, 0x01, 0x01, 0x71]
/-- R78, REQUEST_READ. -/
def readFrame : List Byte := [0x42, 0x4D, 0xE2, 0x00, 0x00, 0x01, 0x71]

/-- The operation set of R84, every one of the sixteen codes. -/
def decodeOp (code : BitVec 4) : Instr :=
  match code.toNat with
  | 0x0 => .reserved0
  | 0x1 => .sync
  | 0x2 => .collect
  | 0x3 => .validate
  | 0x4 => .drain
  | 0x5 => .reserved5
  | 0x6 => .reserved6
  | 0x7 => .reserved7
  | 0x8 => .txSleep
  | 0x9 => .txWake
  | 0xA => .txPassive
  | 0xB => .txActive
  | 0xC => .txRead
  | 0xD => .reservedD
  | 0xE => .reservedE
  | _ => .reservedF

/-- An operation word stands in one byte whose four high bits are 0 (R83). -/
def decodeOpBytes : List Byte → Except DecodeError Instr
  | [b] => if b.toNat < 16 then .ok (decodeOp (b.setWidth 4)) else .error .notFourBits
  | _ => .error .wrongLength

/-- One of the five frames of R78, whole. -/
def decodeCmd (bs : List Byte) : Except DecodeError Instr :=
  if bs = sleepFrame then .ok .cmdSleep
  else if bs = wakeFrame then .ok .cmdWake
  else if bs = passiveFrame then .ok .cmdSetModePassive
  else if bs = activeFrame then .ok .cmdSetModeActive
  else if bs = readFrame then .ok .cmdRequestRead
  else if bs.length = Config.cmdLen then .error .unknownCommand
  else .error .wrongLength

/-- R71: the marker, the length field, twelve channels, the reserved field, the checksum field. -/
def decodeData : List Byte → Except DecodeError Instr
  | m0 :: m1 :: lenH :: lenL :: rest =>
    match rest.drop (2 * Config.nChannels) with
    | [rsvH, rsvL, ckH, ckL] =>
      if m0 = Config.marker0 ∧ m1 = Config.marker1 then
        .ok (.dataFrame lenH lenL (pairUp (rest.take (2 * Config.nChannels))) rsvH rsvL ckH ckL)
      else .error .noMarker
    | _ => .error .wrongLength
  | _ => .error .wrongLength

/-- R79: eight bytes, whatever they are. -/
def decodeAck (bs : List Byte) : Except DecodeError Instr :=
  if bs.length = Config.ackLen then .ok (.ack bs) else .error .wrongLength

/-- A strobe has no bits (R84). -/
def decodeStrobe (i : Instr) : List Byte → Except DecodeError Instr
  | [] => .ok i
  | _ :: _ => .error .wrongLength

/-- The instruction the bytes `bs` stand for on channel `c`; total, rejecting by name. -/
def decode (c : Channel) (bs : List Byte) : Except DecodeError Instr :=
  match c with
  | .op => decodeOpBytes bs
  | .abort => decodeStrobe .abort bs
  | .reset => decodeStrobe .reset bs
  | .cmd => decodeCmd bs
  | .data => decodeData bs
  | .ack => decodeAck bs

/-- The channel an instruction comes on (R70, R84). -/
def Instr.channel : Instr → Channel
  | .sync => .op
  | .collect => .op
  | .validate => .op
  | .drain => .op
  | .txSleep => .op
  | .txWake => .op
  | .txPassive => .op
  | .txActive => .op
  | .txRead => .op
  | .reserved0 => .op
  | .reserved5 => .op
  | .reserved6 => .op
  | .reserved7 => .op
  | .reservedD => .op
  | .reservedE => .op
  | .reservedF => .op
  | .abort => .abort
  | .reset => .reset
  | .cmdSleep => .cmd
  | .cmdWake => .cmd
  | .cmdSetModePassive => .cmd
  | .cmdSetModeActive => .cmd
  | .cmdRequestRead => .cmd
  | .dataFrame _ _ _ _ _ _ _ => .data
  | .ack _ => .ack

/-- The bytes of an instruction, in stream order (R71, R78, R79, R84). -/
def encode : Instr → List Byte
  | .sync => [0x01]
  | .collect => [0x02]
  | .validate => [0x03]
  | .drain => [0x04]
  | .txSleep => [0x08]
  | .txWake => [0x09]
  | .txPassive => [0x0A]
  | .txActive => [0x0B]
  | .txRead => [0x0C]
  | .reserved0 => [0x00]
  | .reserved5 => [0x05]
  | .reserved6 => [0x06]
  | .reserved7 => [0x07]
  | .reservedD => [0x0D]
  | .reservedE => [0x0E]
  | .reservedF => [0x0F]
  | .abort => []
  | .reset => []
  | .cmdSleep => sleepFrame
  | .cmdWake => wakeFrame
  | .cmdSetModePassive => passiveFrame
  | .cmdSetModeActive => activeFrame
  | .cmdRequestRead => readFrame
  | .dataFrame lenH lenL chans rsvH rsvL ckH ckL =>
    Config.marker0 :: Config.marker1 :: lenH :: lenL :: (splitUp chans ++ [rsvH, rsvL, ckH, ckL])
  | .ack bytes => bytes

/-- The channel whose words have `nbits` bits in spec/opcode_table.json (an operation word also in a whole byte).
The table gives both strobes no bits at all, so a word of no bits names neither (R84: "a decoder of the operation word
ignores those two rows"; log entry 6). -/
def Channel.ofBits : Nat → Option Channel
  | 4 => some .op
  | 8 => some .op
  | 56 => some .cmd
  | 64 => some .ack
  | 256 => some .data
  | _ => none

/-- The `n` bytes of the number `w`, the most significant first: the table numbers offset 0 of a frame as its highest
byte (R71 "offset 0 bit 7 = bit 255", R76 "offset 0 bit 7 = bit 55"). -/
def wordBytes : Nat → Nat → List Byte
  | 0, _ => []
  | n + 1, w => BitVec.ofNat 8 (w / 256 ^ n) :: wordBytes n w

/-- The instruction the decoder reads from a word of `nbits` bits numbered as spec/opcode_table.json numbers them. -/
def decodeTableWord (nbits w : Nat) : Option Instr :=
  match Channel.ofBits nbits with
  | none => none
  | some c =>
    match decode c (wordBytes ((nbits + 7) / 8) w) with
    | .ok i => some i
    | .error _ => none

end Sys2Proof
end

