-- ==== Sys2Proof/Machine/State.lean ====
section
/-! DEFINITION. The state: the ten items of the block (R10), the two streams (R40), the parameter (R3), what the spec
says of the host (R178, R183), and the model's own record of who moves next. Plain data throughout. -/

namespace Sys2Proof.Machine

/-- The sequencer state `st` (R11). -/
inductive St where
  /-- No operation in progress. -/
  | idle
  /-- SYNC in progress; the last byte taken in this scan, if any, was not `0x42`. -/
  | hunt
  /-- SYNC in progress; the last byte taken in this scan was `0x42`. -/
  | got42
  /-- COLLECT in progress. -/
  | collect
  /-- DRAIN in progress. -/
  | drain
  deriving DecidableEq, Repr

/-- The outcome of the most recent operation (R21). -/
inductive Err where
  | none
  | checksum
  | timeout
  | seq
  deriving DecidableEq, Repr

/-- A byte array as (offset, byte) pairs, offsets strictly rising; an offset not listed holds no value at all
(R17, R26, log entry 2). -/
abbrev Memory := List Host.Cell

/-- The whole state of the block, R10: ten items and nothing else. -/
structure Block where
  /-- `st` (R11). -/
  st : St
  /-- `fb_cnt` (R12): bytes of the current frame in FB, and the offset of the next write. -/
  fbCnt : BitVec 6
  /-- `ack_cnt` (R13): acknowledgment bytes in ACKB, and the index of the next write. -/
  ackCnt : BitVec 4
  /-- `SCAN_CNT` (R15): bytes taken by the current or last scan. -/
  scanCnt : Half
  /-- `SUM` (R16): the last frame sum. -/
  sum : Half
  /-- `FB[0..31]` (R18). -/
  fb : Memory
  /-- `ACKB[0..7]` (R19). -/
  ackb : Memory
  /-- `CK_VALID` (R20). -/
  ckValid : Bool
  /-- `CK_OK` (R20). -/
  ckOk : Bool
  /-- `ERR` (R21). -/
  err : Err
  deriving DecidableEq, Repr

/-- The block after Reset (R26): every item at its value there, FB and ACKB unspecified. -/
def Block.reset : Block where
  st := .idle
  fbCnt := 0
  ackCnt := 0
  scanCnt := 0
  sum := 0
  fb := []
  ackb := []
  ckValid := false
  ckOk := false
  err := .none

/-- The host's belief about the sensor (R178). -/
inductive Mode where
  | active
  | passive
  deriving DecidableEq, Repr

/-- The source's public operations (R87). -/
inductive Pseudo where
  | read
  | sleep
  | wake
  | setMode (m : Mode)
  deriving DecidableEq, Repr

/-- One line of what the host still has to do: the lines of a script (R86) and the host's own acts in the sequences of
R179 to R182. -/
inductive Line where
  /-- Wait until `OP_READY`, then issue the code (R86, R174). -/
  | issue (code : BitVec 4)
  /-- Wait until `OP_READY` (R86: "then wait until `OP_READY` again before the next line"). -/
  | await
  /-- Fire Abort; it does not wait (R86). -/
  | abort
  /-- Wait until `OP_READY`, then fire Reset (R86: ABORT is the one line that does not wait). -/
  | reset
  /-- Create the session: Mode is ACTIVE (R178). -/
  | construct
  /-- Open the transport (R183). -/
  | openLink
  /-- Close the transport (R183). -/
  | closeLink
  /-- `Mode <- m` (R182). -/
  | believe (m : Mode)
  /-- Look at `ERR` when the operation has ended; on an error close the transport and fail (R179, R182). -/
  | check
  /-- The end of a sequence that returns nothing (R180 to R182). -/
  | done
  /-- The end of READ: return the twelve channels (R179). -/
  | ret
  /-- A public operation, to be expanded when its turn comes (R87, R179 to R182). -/
  | pseudo (p : Pseudo)
  deriving DecidableEq, Repr

/-- What a clocked implementation sampled in one clock period (R207). -/
structure Sampled where
  reset : Bool
  abort : Bool
  rx    : Bool
  op    : Option (BitVec 4)
  deriving DecidableEq, Repr

/-- Who moves next, and with what. The order of events that are ready together is free (R207, U17): any list of turns
is an order. -/
inductive Turn where
  /-- Bits of an instruction of the table appear on a channel now: the host presents a code or fires a strobe, or the
  sensor's frame arrives. A code presented while the block is busy is not taken (R174). -/
  | present (c : Channel) (bytes : List Byte)
  /-- The transport appends bytes to RX, whatever they are (R44, R82(a)). -/
  | arrive (bytes : List Byte)
  /-- RX's content is chosen afresh: what opening or closing the transport may do to it (R183, U15). -/
  | refill (bytes : List Byte)
  /-- The block takes the oldest byte of RX: the event RxByte (R44). -/
  | take
  /-- The transport carries the oldest command frame of TX to the sensor (R45). -/
  | carry
  /-- The host does its next line (R86). -/
  | host
  /-- One clock period of a clocked implementation (R207). -/
  | period (p : Sampled)
  deriving DecidableEq, Repr

/-- What the host's last public operation ended with (R179 to R182). -/
inductive Report where
  /-- Nothing has ended yet. -/
  | none
  /-- Ended well, nothing to return. -/
  | done
  /-- Failed with this code, no record (R179). -/
  | failed (e : Err)
  /-- The measurement record: channels 0 to 11 in order (R179). -/
  | record (chans : List Half)
  deriving DecidableEq, Repr

/-- The machine. -/
structure State where
  /-- The block itself (R10). -/
  block : Block
  /-- `SYNC_MAX_BYTES` (R3); no step writes it (log entry 1). -/
  syncMax : ScanBound
  /-- The receive stream, oldest byte first (R44). -/
  rx : List Byte
  /-- The transmit stream, oldest byte first (R45). -/
  tx : List Byte
  /-- The host's `Mode` (R178). -/
  mode : Mode
  /-- Whether the transport is open (R183). -/
  linkOpen : Bool
  /-- The host's remaining lines, the next one first (R86; the model's own field, log entry 4). -/
  script : List Line
  /-- The order in which the agents move, the next one first (U17; the model's own field, log entry 4). -/
  turns : List Turn
  /-- How the host's last public operation ended (R179; the model's own field, log entry 7). -/
  report : Report
  deriving DecidableEq, Repr

/-- Why the machine stops. Every one stops it where the spec gives a byte or a channel no value, or where an offset
does not exist; all are safe (a true claim may become unprovable, no false claim becomes provable). -/
inductive Fault where
  /-- A byte at or above its count, or one nothing has written, is needed (R17, U9: "reading one is a fault of the
  model, never a value"). Raised by the FB and ACKB ports, by VALIDATE and by the channel port; in a state that keeps
  the invariants of R28 only the two byte ports can raise it. Safe. -/
  | byteNotValid
  /-- A write at an offset outside FB's 0..31 or ACKB's 0..7 (R40). Raised by RxByte in COLLECT and DRAIN, never in a
  state that keeps R28. Safe. -/
  | noSuchByte
  /-- `ch_data` is used although `ch_valid` is 0 (R141, U10). Raised by the channel port and by the host's READ when
  another turn has shut the port between its VALIDATE and its return. Safe. -/
  | channelNotValid
  deriving DecidableEq, Repr

/-- Why an instruction has no meaning. -/
inductive Refusal where
  /-- An arm of `exec` without a meaning; no arm of this model raises it. Safe. -/
  | notModelled (mnemonic : String)
  /-- The bits presented are no instruction of the table (R82(c), R83). Raised by the turns `present` and `carry`, never
  by a meaning. Safe. -/
  | undecodable (why : DecodeError)
  deriving DecidableEq, Repr

/-- The machine right after Reset (R26), with the parameter and RX as given: the parameter is an argument of the model
(R3) and RX is a free input that Reset does not touch (R27, R232). -/
def State.resetWith (bound : ScanBound) (rx : List Byte) : State where
  block := Block.reset
  syncMax := bound
  rx := rx
  tx := []
  mode := .active
  linkOpen := false
  script := []
  turns := []
  report := .none

/-- The machine right after Reset with the original's unbounded scan and nothing yet received (log entries 1, 3). -/
def State.reset : State := State.resetWith .unbounded []

end Sys2Proof.Machine
end

