-- ==== Sys2Proof/Machine/Ops.lean ====
section
/-! DEFINITION. The named operations over the arrays, the registers and the streams; error entry (R204) and the
acceptance of an operation (R174), each said once. -/

namespace Sys2Proof.Machine

/-! ### The byte arrays (R40, R47) -/

/-- The canonical form of an array: offsets strictly rising. Nothing else is needed, since an unlisted offset holds no
value that a listed one could equal. -/
abbrev Memory.wf (m : Memory) : Prop := List.Pairwise (fun x y : Host.Cell => x.1 < y.1) m

/-- `MemRead` of one cell: `none` is a cell without a value (R17, R26). -/
def Memory.read : Memory → Nat → Option Byte
  | [], _ => none
  | (b, w) :: rest, a => if a = b then some w else Memory.read rest a

/-- `MemWrite` of one cell; keeps the canonical form. -/
def Memory.write : Memory → Nat → Byte → Memory
  | [], a, v => [(a, v)]
  | (b, w) :: rest, a, v =>
    if a < b then (a, v) :: (b, w) :: rest
    else if a = b then (a, v) :: rest
    else (b, w) :: Memory.write rest a v

/-! ### The registers of the block -/

/-- `ERR <- NONE`, the first act of every OpAccept (R21, R205). -/
def Block.clearErr (b : Block) : Block := { b with err := .none }

/-- `raise E` (R204): "`ERR <- E`; `st <- IDLE`", exactly this and no more. The return from an error is
`Block.clearErr` at the next acceptance (R205). -/
def Block.raise (e : Err) (b : Block) : Block := { b with err := e, st := .idle }

/-- `st <- S`. -/
def Block.goto (s : St) (b : Block) : Block := { b with st := s }

/-- No frame stands in FB any more and no verdict (R100, R170). FB's cells are not written. -/
def Block.dropFrame (b : Block) : Block := { b with fbCnt := 0, ckValid := false, ckOk := false }

/-- `SCAN_CNT <- 0` (R100). -/
def Block.clearScan (b : Block) : Block := { b with scanCnt := 0 }

/-- `SCAN_CNT <- min(SCAN_CNT + 1, 0xFFFF)` (R15, R101). -/
def Block.countByte (b : Block) : Block :=
  { b with scanCnt := if b.scanCnt = 0xFFFF then 0xFFFF else b.scanCnt + 1 }

/-- The marker stands in FB (R104): offsets 0 and 1 are written in one event. -/
def Block.storeMarker (b : Block) : Block :=
  { b with fb := (b.fb.write 0 Config.marker0).write 1 Config.marker1, fbCnt := 2 }

/-- `FB[fb_cnt] <- v; fb_cnt <- fb_cnt + 1` (R108). FB has no offset 32 (R40). -/
def Block.storeFrameByte (v : Byte) (b : Block) : Except Fault Block :=
  if b.fbCnt.toNat < Config.frameLen then
    .ok { b with fb := b.fb.write b.fbCnt.toNat v, fbCnt := b.fbCnt + 1 }
  else .error .noSuchByte

/-- `ack_cnt <- 0` (R112). -/
def Block.clearAck (b : Block) : Block := { b with ackCnt := 0 }

/-- `ACKB[ack_cnt] <- v; ack_cnt <- ack_cnt + 1` (R113). ACKB has no index 8 (R40). -/
def Block.storeAckByte (v : Byte) (b : Block) : Except Fault Block :=
  if b.ackCnt.toNat < Config.ackLen then
    .ok { b with ackb := b.ackb.write b.ackCnt.toNat v, ackCnt := b.ackCnt + 1 }
  else .error .noSuchByte

/-- `SUM <- s; CK_VALID <- 1; CK_OK <- ok` (R130). -/
def Block.giveVerdict (s : Half) (ok : Bool) (b : Block) : Block :=
  { b with sum := s, ckValid := true, ckOk := ok }

/-! ### The machine around the block -/

/-- Change the block alone. -/
def State.mapBlock (f : Block → Block) (s : State) : State := { s with block := f s.block }

/-- `TxPush(bs)`: append to TX as one indivisible act (R45). -/
def State.txPush (bs : List Byte) (s : State) : State := { s with tx := s.tx ++ bs }

/-- The transport appends to RX what the sensor sends, in the order sent (R44). -/
def State.rxAppend (bs : List Byte) (s : State) : State := { s with rx := s.rx ++ bs }

/-- The bytes `f` leave TX towards the sensor: only if they are the oldest there (R45); else nothing happens. -/
def State.txCarry (f : List Byte) (s : State) : State :=
  if f.isPrefixOf s.tx then { s with tx := s.tx.drop f.length } else s

/-- OpAccept (R174, R21): a code is taken only in IDLE, and its first act is `ERR <- NONE`; a busy block does not take
it, nothing changes and no error is raised. `act` is what the operation does then. -/
def accept (act : State → Host.Outcome State Fault Refusal) (s : State) : Host.Outcome State Fault Refusal :=
  match s.block.st with
  | .idle => act (s.mapBlock Block.clearErr)
  | .hunt => .next s
  | .got42 => .next s
  | .collect => .next s
  | .drain => .next s

end Sys2Proof.Machine
end

