-- ==== Sys2Proof/Machine/Flags.lean ====
section
/-! DEFINITION. The status bits that are functions of the state (R22), the numeric codes (R11, R21) and the STATUS word
(R23). -/

namespace Sys2Proof.Machine

/-- The code of `st` (R11). -/
def St.code : St → BitVec 3
  | .idle => 0
  | .hunt => 1
  | .got42 => 2
  | .collect => 3
  | .drain => 4

/-- The code of `ERR` (R21). -/
def Err.code : Err → BitVec 2
  | .none => 0
  | .checksum => 1
  | .timeout => 2
  | .seq => 3

/-- `BUSY = (st != IDLE)` (R22). -/
def Block.busy (b : Block) : Bool := b.st != .idle

/-- `OP_READY = (st = IDLE)` (R22). -/
def Block.opReady (b : Block) : Bool := b.st == .idle

/-- `RX_READY = (st in {HUNT, GOT42, COLLECT, DRAIN})` (R22). -/
def Block.rxReady (b : Block) : Bool :=
  match b.st with
  | .idle => false
  | .hunt => true
  | .got42 => true
  | .collect => true
  | .drain => true

/-- `SYNCED = (fb_cnt >= 2)` (R22). -/
def Block.synced (b : Block) : Bool := decide (2 ≤ b.fbCnt.toNat)

/-- `FULL = (fb_cnt = 32)` (R22). -/
def Block.full (b : Block) : Bool := decide (b.fbCnt.toNat = Config.frameLen)

/-- The verdict comparison (R132): the low 8 bits of the sum against the compared byte. -/
def sumMatches (s : Half) (ck : Byte) : Bool := loByte s == ck

/-- STATUS (R23), from bit 15 down: reserved, `ACK_CNT`, `ERR`, `CK_OK`, `ST`, `CK_VALID`, `FULL`, `SYNCED`, `BUSY`. -/
def Block.status (b : Block) : Half :=
  0#2 ++ b.ackCnt ++ b.err.code ++ BitVec.ofBool b.ckOk ++ b.st.code ++ BitVec.ofBool b.ckValid ++
    BitVec.ofBool b.full ++ BitVec.ofBool b.synced ++ BitVec.ofBool b.busy

end Sys2Proof.Machine
end

