-- ==== Sys2Proof/Machine/Operands.lean ====
section
/-! DEFINITION. The operands the block reads from its own arrays: single valid bytes (R17) and runs of them. -/

namespace Sys2Proof.Machine

/-- `FB[i]` as a byte with a value: it must be valid, `i < fb_cnt` (R17). -/
def Block.fbByte (b : Block) (i : Nat) : Option Byte :=
  if i < b.fbCnt.toNat then b.fb.read i else none

/-- `ACKB[i]` as a byte with a value: it must be valid, `i < ack_cnt` (R17). -/
def Block.ackByte (b : Block) (i : Nat) : Option Byte :=
  if i < b.ackCnt.toNat then b.ackb.read i else none

/-- `n` bytes of FB from offset `a` upward; `none` if one of them has no value. -/
def Block.fbBytes (b : Block) (a : Nat) : Nat → Option (List Byte)
  | 0 => some []
  | n + 1 =>
    match b.fbByte a, Block.fbBytes b (a + 1) n with
    | some v, some vs => some (v :: vs)
    | _, _ => none

/-- `MemRead(FB, a, 2)` = `be16(FB[a], FB[a+1])` (spec/00_scope.md section 6, R80). -/
def Block.fbHalf (b : Block) (a : Nat) : Option Half :=
  match b.fbByte a, b.fbByte (a + 1) with
  | some hi, some lo => some (be16 hi lo)
  | _, _ => none

/-- The sum of bytes in 16 bits, each taken as unsigned (R81, R131, R151). -/
def sumBytes : List Byte → Half
  | [] => 0
  | v :: vs => v.setWidth 16 + sumBytes vs

end Sys2Proof.Machine
end

