-- ==== Sys2Proof/Machine/Checksum.lean ====
section
/-! DEFINITION. The frame checksum validator (spec/41_checksum.md): VALIDATE, and the channels of a validated frame. -/

namespace Sys2Proof.Machine

/-- `frame_sum(FB)` (R131): the sum of offsets 0 to 29; `none` if one of those bytes has no value. -/
def Block.frameSum (b : Block) : Option Half :=
  match b.fbBytes 0 Config.sumLen with
  | some bytes => some (sumBytes bytes)
  | none => none

/-- What VALIDATE does when accepted (R130, R133, R134): SEQ unless `fb_cnt = 32`; else the sum, the verdict and, on a
mismatch, CHECKSUM. Offset 30 is not read (R135). -/
def validateAct (s : State) : Host.Outcome State Fault Refusal :=
  if s.block.fbCnt = 32 then
    match s.block.frameSum, s.block.fbByte Config.ckOffset with
    | some total, some ck =>
      if sumMatches total ck then .next (s.mapBlock (Block.giveVerdict total true))
      else .next (s.mapBlock fun b => (b.giveVerdict total false).raise .checksum)
    | _, _ => .fault .byteNotValid
  else .next (s.mapBlock (Block.raise .seq))

/-- VALIDATE, acceptance (R130). -/
def execValidate (s : State) : Host.Outcome State Fault Refusal := accept validateAct s

/-- `ch_valid` of the channel port (R140, R141, R142). -/
def Block.chValid (b : Block) (i : BitVec 4) : Bool := b.ckOk && decide (i.toNat < Config.nChannels)

/-- `ch_data` of the channel port (R140): it has a value only when `ch_valid` is 1 (R141). -/
def Block.chData (b : Block) (i : BitVec 4) : Except Fault Half :=
  if b.chValid i then
    match b.fbHalf (Config.chBase + 2 * i.toNat) with
    | some v => .ok v
    | none => .error .byteNotValid
  else .error .channelNotValid

end Sys2Proof.Machine
end

