-- ==== Sys2Proof/Machine/Command.lean ====
section
/-! DEFINITION. The command encoder (spec/42_command.md): its pure function and the five operations that push its
result to TX. -/

namespace Sys2Proof.Machine

/-- `cmd_sum(o, p, q)` (R151): the 16-bit sum of the marker and the three bytes. -/
def cmdSum (o p q : Byte) : Half := sumBytes [Config.marker0, Config.marker1, o, p, q]

/-- `cmd_frame(o, p, q)` (R150): seven bytes in stream order, the checksum big-endian. -/
def cmdFrame (o p q : Byte) : List Byte :=
  [Config.marker0, Config.marker1, o, p, q, hiByte (cmdSum o p q), loByte (cmdSum o p q)]

/-- The common behaviour of the five TX operations when accepted (R154): seven bytes, in order, indivisible. -/
def transmitAct (o p q : Byte) (s : State) : Host.Outcome State Fault Refusal := .next (s.txPush (cmdFrame o p q))

/-- TX_SLEEP (R155). -/
def execTxSleep (s : State) : Host.Outcome State Fault Refusal := accept (transmitAct 0xE4 0x00 0x00) s

/-- TX_WAKE (R156). -/
def execTxWake (s : State) : Host.Outcome State Fault Refusal := accept (transmitAct 0xE4 0x00 0x01) s

/-- TX_PASSIVE (R157). -/
def execTxPassive (s : State) : Host.Outcome State Fault Refusal := accept (transmitAct 0xE1 0x00 0x00) s

/-- TX_ACTIVE (R158). -/
def execTxActive (s : State) : Host.Outcome State Fault Refusal := accept (transmitAct 0xE1 0x00 0x01) s

/-- TX_READ (R159). -/
def execTxRead (s : State) : Host.Outcome State Fault Refusal := accept (transmitAct 0xE2 0x00 0x00) s

end Sys2Proof.Machine
end

