-- ==== Sys2Proof/Machine/Control.lean ====
section
/-! DEFINITION. Control (spec/43_control_and_host.md section 1, spec/70_reset_and_hazards.md section 1): the reserved
codes, the Abort strobe, the Reset strobe. -/

namespace Sys2Proof.Machine

/-- What a reserved code does when accepted (R172): SEQ and nothing else. -/
def reservedAct (s : State) : Host.Outcome State Fault Refusal := .next (s.mapBlock (Block.raise .seq))

/-- Code `0x0` (R172). -/
def execReserved0 (s : State) : Host.Outcome State Fault Refusal := accept reservedAct s

/-- Code `0x5` (R172). -/
def execReserved5 (s : State) : Host.Outcome State Fault Refusal := accept reservedAct s

/-- Code `0x6` (R172). -/
def execReserved6 (s : State) : Host.Outcome State Fault Refusal := accept reservedAct s

/-- Code `0x7` (R172). -/
def execReserved7 (s : State) : Host.Outcome State Fault Refusal := accept reservedAct s

/-- Code `0xD` (R172). -/
def execReservedD (s : State) : Host.Outcome State Fault Refusal := accept reservedAct s

/-- Code `0xE` (R172). -/
def execReservedE (s : State) : Host.Outcome State Fault Refusal := accept reservedAct s

/-- Code `0xF` (R172). -/
def execReservedF (s : State) : Host.Outcome State Fault Refusal := accept reservedAct s

/-- Abort at the block (R170, R171): in a scan or COLLECT the partial frame is dropped; in DRAIN `ack_cnt` keeps its
value; in IDLE nothing changes, not even `ERR`. -/
def Block.abort (b : Block) : Block :=
  match b.st with
  | .idle => b
  | .hunt => b.dropFrame.raise .timeout
  | .got42 => b.dropFrame.raise .timeout
  | .collect => b.dropFrame.raise .timeout
  | .drain => b.raise .timeout

/-- The Abort strobe (R170): it does not wait for `OP_READY`. -/
def execAbort (s : State) : Host.Outcome State Fault Refusal := .next (s.mapBlock Block.abort)

/-- The Reset strobe (R230): every item of the block to its value in R26, at any time; the streams and the host are not
touched (R232). -/
def execReset (s : State) : Host.Outcome State Fault Refusal := .next (s.mapBlock fun _ => Block.reset)

end Sys2Proof.Machine
end

