-- ==== Sys2Proof/Machine/Sync.lean ====
section
/-! DEFINITION. The frame synchronizer (spec/40_sync.md): the acceptance of SYNC, COLLECT and DRAIN, and the event
RxByte by which each of them goes on. -/

namespace Sys2Proof.Machine

/-- What SYNC does when accepted (R100), after `ERR <- NONE`: the old frame is no longer valid, the count starts anew, and
every scan starts in HUNT (R111). -/
def syncAct (s : State) : Host.Outcome State Fault Refusal :=
  .next (s.mapBlock fun b => b.dropFrame.clearScan.goto .hunt)

/-- SYNC, acceptance (R100). -/
def execSync (s : State) : Host.Outcome State Fault Refusal := accept syncAct s

/-- What COLLECT does when accepted (R107): SEQ unless `fb_cnt = 2`. -/
def collectAct (s : State) : Host.Outcome State Fault Refusal :=
  if s.block.fbCnt = 2 then .next (s.mapBlock (Block.goto .collect))
  else .next (s.mapBlock (Block.raise .seq))

/-- COLLECT, acceptance (R107). -/
def execCollect (s : State) : Host.Outcome State Fault Refusal := accept collectAct s

/-- What DRAIN does when accepted (R112). -/
def drainAct (s : State) : Host.Outcome State Fault Refusal :=
  .next (s.mapBlock fun b => b.clearAck.goto .drain)

/-- DRAIN, acceptance (R112). -/
def execDrain (s : State) : Host.Outcome State Fault Refusal := accept drainAct s

/-- `check_bound()` (R105): after a byte that did not complete the marker, TIMEOUT when `SCAN_CNT` has reached a
`SYNC_MAX_BYTES` other than 0. -/
def Block.checkBound (bound : ScanBound) (b : Block) : Block :=
  if bound.toNat ≠ 0 ∧ b.scanCnt.toNat = bound.toNat then b.raise .timeout else b

/-- RxByte in HUNT (R101). -/
def Block.rxHunt (bound : ScanBound) (v : Byte) (b : Block) : Block :=
  (b.countByte.goto (if v = Config.marker0 then .got42 else .hunt)).checkBound bound

/-- RxByte in GOT42 (R102, R103, R104): the marker is tested before the bound. -/
def Block.rxGot42 (bound : ScanBound) (v : Byte) (b : Block) : Block :=
  if v = Config.marker1 then b.countByte.storeMarker.goto .idle
  else (b.countByte.goto (if v = Config.marker0 then .got42 else .hunt)).checkBound bound

/-- RxByte in COLLECT (R108, R109): the end is tested after the increment. -/
def Block.rxCollect (v : Byte) (b : Block) : Except Fault Block :=
  match b.storeFrameByte v with
  | .error f => .error f
  | .ok b' => .ok (if b'.fbCnt.toNat = Config.frameLen then b'.goto .idle else b')

/-- RxByte in DRAIN (R113, R114): the end is tested after the increment. -/
def Block.rxDrain (v : Byte) (b : Block) : Except Fault Block :=
  match b.storeAckByte v with
  | .error f => .error f
  | .ok b' => .ok (if b'.ackCnt.toNat = Config.ackLen then b'.goto .idle else b')

/-- The event RxByte at the block (R115). In IDLE there is none (R22, R44). -/
def Block.rxByte (bound : ScanBound) (v : Byte) (b : Block) : Except Fault Block :=
  match b.st with
  | .idle => .ok b
  | .hunt => .ok (b.rxHunt bound v)
  | .got42 => .ok (b.rxGot42 bound v)
  | .collect => b.rxCollect v
  | .drain => b.rxDrain v

/-- The block takes the oldest byte of RX (R44): only while RX_READY, only if there is one; else nothing happens and no
byte is lost. -/
def takeByte (s : State) : Host.Outcome State Fault Refusal :=
  match s.rx with
  | [] => .next s
  | v :: rest =>
    if s.block.rxReady then
      match s.block.rxByte s.syncMax v with
      | .ok b => .next { s with block := b, rx := rest }
      | .error f => .fault f
    else .next s

end Sys2Proof.Machine
end

