-- ==== Sys2Proof/Machine/Wire.lean ====
section
/-! DEFINITION. The wire formats as events of the transport (R5, R44, R45; log entry 5): a command frame leaves TX
towards the sensor, a data frame or an acknowledgment arrives on RX. The block itself takes part in none of them: it
sees a byte of RX only when it takes it (R53), and never reads TX back (R45). -/

namespace Sys2Proof.Machine

/-- The frame `42 4D E4 00 00 01 73` leaves TX (R45, R78). -/
def execCmdSleep (s : State) : Host.Outcome State Fault Refusal := .next (s.txCarry (encode .cmdSleep))

/-- The frame `42 4D E4 00 01 01 74` leaves TX (R45, R78). -/
def execCmdWake (s : State) : Host.Outcome State Fault Refusal := .next (s.txCarry (encode .cmdWake))

/-- The frame `42 4D E1 00 00 01 70` leaves TX (R45, R78). -/
def execCmdSetModePassive (s : State) : Host.Outcome State Fault Refusal :=
  .next (s.txCarry (encode .cmdSetModePassive))

/-- The frame `42 4D E1 00 01 01 71` leaves TX (R45, R78). -/
def execCmdSetModeActive (s : State) : Host.Outcome State Fault Refusal :=
  .next (s.txCarry (encode .cmdSetModeActive))

/-- The frame `42 4D E2 00 00 01 71` leaves TX (R45, R78). -/
def execCmdRequestRead (s : State) : Host.Outcome State Fault Refusal := .next (s.txCarry (encode .cmdRequestRead))

/-- A data frame arrives: its bytes stand at the tail of RX, in offset order (R43, R44, R71). -/
def execDataFrame (lenH lenL : Byte) (chans : List Half) (rsvH rsvL ckH ckL : Byte) (s : State) :
    Host.Outcome State Fault Refusal :=
  .next (s.rxAppend (encode (.dataFrame lenH lenL chans rsvH rsvL ckH ckL)))

/-- An acknowledgment arrives: its bytes stand at the tail of RX, in order (R44, R79). -/
def execAck (bytes : List Byte) (s : State) : Host.Outcome State Fault Refusal :=
  .next (s.rxAppend (encode (.ack bytes)))

end Sys2Proof.Machine
end

