-- ==== Sys2Proof/Machine/Dispatch.lean ====
section
/-! DEFINITION. One arm per instruction. -/

namespace Sys2Proof.Machine

open Sys2Proof

def exec (i : Instr) (s : State) : Host.Outcome State Fault Refusal :=
  match i with
  | .sync => Sys2Proof.Machine.execSync s
  | .collect => Sys2Proof.Machine.execCollect s
  | .validate => Sys2Proof.Machine.execValidate s
  | .drain => Sys2Proof.Machine.execDrain s
  | .txSleep => Sys2Proof.Machine.execTxSleep s
  | .txWake => Sys2Proof.Machine.execTxWake s
  | .txPassive => Sys2Proof.Machine.execTxPassive s
  | .txActive => Sys2Proof.Machine.execTxActive s
  | .txRead => Sys2Proof.Machine.execTxRead s
  | .reserved0 => Sys2Proof.Machine.execReserved0 s
  | .reserved5 => Sys2Proof.Machine.execReserved5 s
  | .reserved6 => Sys2Proof.Machine.execReserved6 s
  | .reserved7 => Sys2Proof.Machine.execReserved7 s
  | .reservedD => Sys2Proof.Machine.execReservedD s
  | .reservedE => Sys2Proof.Machine.execReservedE s
  | .reservedF => Sys2Proof.Machine.execReservedF s
  | .abort => Sys2Proof.Machine.execAbort s
  | .reset => Sys2Proof.Machine.execReset s
  | .cmdSleep => Sys2Proof.Machine.execCmdSleep s
  | .cmdWake => Sys2Proof.Machine.execCmdWake s
  | .cmdSetModePassive => Sys2Proof.Machine.execCmdSetModePassive s
  | .cmdSetModeActive => Sys2Proof.Machine.execCmdSetModeActive s
  | .cmdRequestRead => Sys2Proof.Machine.execCmdRequestRead s
  | .dataFrame lenH lenL chans rsvH rsvL ckH ckL => Sys2Proof.Machine.execDataFrame lenH lenL chans rsvH rsvL ckH ckL s
  | .ack bytes => Sys2Proof.Machine.execAck bytes s

end Sys2Proof.Machine
end

