-- ==== Sys2Proof/Machine/Ports.lean ====
section
/-! DEFINITION. The seven read ports of R24. A read is not an event (R4, R176): these are functions of the block, and no
port writes anything. -/

namespace Sys2Proof.Machine

/-- The ports of R24, with their selectors. -/
inductive Port where
  | status
  | sum
  | scanCnt
  | fbCnt
  | fb (a : BitVec 5)
  | ch (i : BitVec 4)
  | ackb (a : BitVec 3)
  deriving DecidableEq, Repr

/-- The number of a port (R24). -/
def Port.number : Port → Nat
  | .status => 0
  | .sum => 1
  | .scanCnt => 2
  | .fbCnt => 3
  | .fb _ => 4
  | .ch _ => 5
  | .ackb _ => 6

/-- The width of a port in bits (R24); the channel port has its `ch_valid` bit beside these. -/
def Port.width : Port → Nat
  | .status => 16
  | .sum => 16
  | .scanCnt => 16
  | .fbCnt => 6
  | .fb _ => 8
  | .ch _ => 16
  | .ackb _ => 8

/-- R24's column "valid when". -/
def Block.portValid (b : Block) : Port → Bool
  | .status => true
  | .sum => true
  | .scanCnt => true
  | .fbCnt => true
  | .fb a => decide (a.toNat < b.fbCnt.toNat)
  | .ch i => b.chValid i
  | .ackb a => decide (a.toNat < b.ackCnt.toNat)

/-- What a port returns (R24). A read of a byte that is not valid, or of a channel with `ch_valid = 0`, has no defined
value (R17, R141, R176) and is a fault of the model (U9, U10). -/
def Block.portRead (b : Block) (p : Port) : Except Fault (BitVec p.width) :=
  match p with
  | .status => .ok b.status
  | .sum => .ok b.sum
  | .scanCnt => .ok b.scanCnt
  | .fbCnt => .ok b.fbCnt
  | .fb a =>
    match b.fbByte a.toNat with
    | some v => .ok v
    | none => .error .byteNotValid
  | .ch i => b.chData i
  | .ackb a =>
    match b.ackByte a.toNat with
    | some v => .ok v
    | none => .error .byteNotValid

end Sys2Proof.Machine
end

