-- ==== Sys2Proof/Machine/Session.lean ====
section
/-! DEFINITION. The host (spec/43_control_and_host.md section 2 and 3, R86, R87): what it does line by line, and the
sequences its public operations expand to. -/

namespace Sys2Proof.Machine

/-- Bits of an instruction appear on a channel: they are decoded and the instruction they stand for is run. -/
def runWord (c : Channel) (bytes : List Byte) (s : State) : Host.Outcome State Fault Refusal :=
  match decode c bytes with
  | .ok i => exec i s
  | .error why => .refused (.undecodable why)

/-- A 4-bit code on the operation port, in a byte of its own (R83). -/
def runCode (code : BitVec 4) (s : State) : Host.Outcome State Fault Refusal :=
  runWord .op [code.setWidth 8] s

/-- One line of a script as R86 means it: wait, issue, wait again. -/
def opLine (code : BitVec 4) : List Line := [.issue code, .await]

/-- A script is the list of its codes (R86). -/
def scriptOf : List (BitVec 4) → List Line
  | [] => []
  | c :: cs => opLine c ++ scriptOf cs

/-- The sequence a public operation stands for, given the host's Mode when it begins: READ (R179), SLEEP (R180), WAKE
(R181), SET_MODE (R182), each bracketed by opening and closing the transport (R183). -/
def Pseudo.expand (m : Mode) : Pseudo → List Line
  | .read =>
    [.openLink]
      ++ (match m with
          | .active => []
          | .passive => opLine 0xC)
      ++ opLine 0x1 ++ [.check]
      ++ opLine 0x2 ++ [.check]
      ++ [.closeLink]
      ++ opLine 0x3 ++ [.check]
      ++ [.ret]
  | .sleep => [.openLink] ++ opLine 0x8 ++ [.closeLink, .done]
  | .wake => [.openLink] ++ opLine 0x9 ++ [.closeLink, .done]
  | .setMode new =>
    [.openLink, .believe new]
      ++ opLine (match new with
          | .passive => 0xA
          | .active => 0xB)
      ++ opLine 0x4 ++ [.check]
      ++ [.closeLink, .done]

/-- What is left of the script when a sequence fails: everything after the end of that sequence. -/
def abandon : List Line → List Line
  | [] => []
  | .done :: rest => rest
  | .ret :: rest => rest
  | .issue _ :: rest => abandon rest
  | .await :: rest => abandon rest
  | .abort :: rest => abandon rest
  | .reset :: rest => abandon rest
  | .construct :: rest => abandon rest
  | .openLink :: rest => abandon rest
  | .closeLink :: rest => abandon rest
  | .believe _ :: rest => abandon rest
  | .check :: rest => abandon rest
  | .pseudo _ :: rest => abandon rest

/-- The values of the channels from `i` on, `n` of them, each read through the channel port (R140). -/
def Block.channels (b : Block) (i : Nat) : Nat → Except Fault (List Half)
  | 0 => .ok []
  | n + 1 =>
    match b.chData (BitVec.ofNat 4 i), Block.channels b (i + 1) n with
    | .ok v, .ok vs => .ok (v :: vs)
    | .error f, _ => .error f
    | _, .error f => .error f

/-- `(CH[0], …, CH[11])`, all twelve or none (R179). -/
def Block.record (b : Block) : Except Fault (List Half) := b.channels 0 Config.nChannels

/-- One line of the host, `s` having it already taken off the script; `wait` is the machine as it was, for a line whose
time has not come. -/
def runLine (l : Line) (wait s : State) : Host.Outcome State Fault Refusal :=
  match l with
  | .issue code => if s.block.opReady then runCode code s else .next wait
  | .await => if s.block.opReady then .next s else .next wait
  | .abort => runWord .abort [] s
  | .reset => if s.block.opReady then runWord .reset [] s else .next wait
  | .construct => .next { s with mode := .active }
  | .openLink => .next { s with linkOpen := true }
  | .closeLink => .next { s with linkOpen := false }
  | .believe m => .next { s with mode := m }
  | .check =>
    if s.block.opReady then
      if s.block.err = .none then .next s
      else .next { s with linkOpen := false, report := .failed s.block.err, script := abandon s.script }
    else .next wait
  | .done => .next { s with report := .done }
  | .ret =>
    match s.block.record with
    | .ok chans => .next { s with report := .record chans }
    | .error f => .fault f
  | .pseudo p => .next { s with script := p.expand s.mode ++ s.script }

/-- The host does its next line, if it has one and the line's time has come; else it waits and nothing changes
(R116, R174). -/
def hostMove (s : State) : Host.Outcome State Fault Refusal :=
  match s.script with
  | [] => .next s
  | l :: rest => runLine l s { s with script := rest }

end Sys2Proof.Machine
end

