-- ==== Sys2Proof/Machine/Schedule.lean ====
section
/-! DEFINITION. Who moves next (R4, R5, R207, R246): the turns that State lists, and the order without them. -/

namespace Sys2Proof.Machine

/-- The oldest command frame of TX is read off the stream and carried to the sensor (R45): its seven bytes are decoded
and the frame is run. With no whole frame there, nothing happens. -/
def carryFrame (s : State) : Host.Outcome State Fault Refusal :=
  if s.tx.length < Config.cmdLen then .next s else runWord .cmd (s.tx.take Config.cmdLen) s

/-- The order of what a clocked implementation sampled in one period (R207): "Reset first (and then nothing else of that
period counts); then Abort; then RxByte; then OpAccept". -/
def Sampled.order (p : Sampled) : List Turn :=
  if p.reset then [.present .reset []]
  else
    (if p.abort then [.present .abort []] else [])
      ++ (if p.rx then [.take] else [])
      ++ (match p.op with
          | some code => [.present .op [code.setWidth 8]]
          | none => [])

/-- One turn, `s` having it already taken off the list. -/
def runTurn (t : Turn) (s : State) : Host.Outcome State Fault Refusal :=
  match t with
  | .present c bytes => runWord c bytes s
  | .arrive bytes => .next (s.rxAppend bytes)
  | .refill bytes => .next { s with rx := bytes }
  | .take => takeByte s
  | .carry => carryFrame s
  | .host => hostMove s
  | .period p => .next { s with turns := p.order ++ s.turns }

/-- The event RxByte is enabled (R22, R44): RX_READY and a byte in RX. -/
def State.rxEnabled (s : State) : Bool := s.block.rxReady && !s.rx.isEmpty

/-- One step: the next turn listed; with none listed, the block takes a byte if it can (the fairness of R246), else the
host goes on with its script, else nothing moves and the machine waits (R116). -/
def advance (s : State) : Host.Outcome State Fault Refusal :=
  match s.turns with
  | t :: rest => runTurn t { s with turns := rest }
  | [] => if s.rxEnabled then takeByte s else hostMove s

end Sys2Proof.Machine
end

