-- ==== Sys2Proof/Machine/Step.lean ====
section
/-! DEFINITION. One step of the machine, and where an instruction is put so that the next step runs it. -/

namespace Sys2Proof.Machine

def step (s : State) : Host.Outcome State Fault Refusal := advance s

/-- The state `s` with the instruction whose bits are `w` standing where the next step fetches it: a command frame as
the oldest bytes of TX, with the turn that carries it; any other instruction as the turn that presents it on its channel.
Bits of a length that no row of the table has stand as an empty operation word, which the decoder rejects. -/
def State.withFetchWord (s : State) (nbits w : Nat) : State :=
  match Channel.ofBits nbits with
  | some .cmd => { s with tx := wordBytes ((nbits + 7) / 8) w ++ s.tx, turns := .carry :: s.turns }
  | some c => { s with turns := .present c (wordBytes ((nbits + 7) / 8) w) :: s.turns }
  | none => { s with turns := .present .op [] :: s.turns }

end Sys2Proof.Machine
end

