-- ==== Sys2Proof/Safety.lean ====
section
/-! DEFINITION. The terms claims are stated in: the invariant of R28 with what the model adds to it, the bytes an
operation takes, the first marker of a byte sequence, and groups of instructions. -/

namespace Sys2Proof.Machine

/-- R28 for the block, with the parameter `bound`, and the facts about the two arrays it rests on: they are in canonical
form, lie within their spaces (R40), and every valid byte (R17) has been written. -/
structure Block.Inv (bound : ScanBound) (b : Block) : Prop where
  fb_wf : b.fb.wf
  ackb_wf : b.ackb.wf
  fb_space : ∀ c ∈ b.fb, c.1 < 32
  ackb_space : ∀ c ∈ b.ackb, c.1 < 8
  /-- R28(b). -/
  fbCnt_legal : b.fbCnt.toNat = 0 ∨ (2 ≤ b.fbCnt.toNat ∧ b.fbCnt.toNat ≤ 32)
  /-- R13. -/
  ackCnt_legal : b.ackCnt.toNat ≤ 8
  fb_written : ∀ i < b.fbCnt.toNat, (b.fb.read i).isSome = true
  ackb_written : ∀ i < b.ackCnt.toNat, (b.ackb.read i).isSome = true
  /-- R28(c). -/
  scanning : b.st = .hunt ∨ b.st = .got42 → b.fbCnt = 0 ∧ b.ckValid = false ∧ b.ckOk = false
  /-- R105: a scan still in progress has not reached its bound. -/
  scan_below : b.st = .hunt ∨ b.st = .got42 → bound.toNat ≠ 0 → b.scanCnt.toNat < bound.toNat
  /-- R28(d). -/
  collecting : b.st = .collect → 2 ≤ b.fbCnt.toNat ∧ b.fbCnt.toNat ≤ 31 ∧ b.ckValid = false
  /-- R28(e). -/
  draining : b.st = .drain → b.ackCnt.toNat ≤ 7
  /-- R28(f). -/
  marker : 2 ≤ b.fbCnt.toNat → b.fb.read 0 = some 0x42 ∧ b.fb.read 1 = some 0x4D
  /-- R28(g), first part. -/
  ok_valid : b.ckOk = true → b.ckValid = true
  /-- R28(g) and (h): a verdict stands only on a whole frame, and SUM and the verdict are that frame's. -/
  verdict : b.ckValid = true → b.fbCnt.toNat = 32 ∧ ∃ total ck, b.frameSum = some total ∧
    b.fb.read 31 = some ck ∧ b.sum = total ∧ b.ckOk = sumMatches total ck
  /-- R28(i). -/
  busy_err : b.st ≠ .idle → b.err = .none

/-- The five command frames of R78. -/
def commandFrames : List (List Byte) := [sleepFrame, wakeFrame, passiveFrame, activeFrame, readFrame]

/-- TX holds whole command frames, one after the other (R45, R47). -/
def TxFrames (tx : List Byte) : Prop := ∃ fs : List (List Byte), (∀ f ∈ fs, f ∈ commandFrames) ∧ tx = fs.flatten

/-- The invariant of the machine. -/
structure State.Inv (s : State) : Prop where
  block : s.block.Inv s.syncMax
  tx : TxFrames s.tx

/-- The block takes `n` bytes one after the other; `none` if a taking faults. -/
def takeN : Nat → State → Option State
  | 0, s => some s
  | n + 1, s =>
    match takeByte s with
    | .next t => takeN n t
    | .fault _ => none
    | .refused _ => none

/-- `bs` ends with the start marker and holds it nowhere earlier (R106(a), (b)). -/
def EndsAtFirstMarker (bs : List Byte) : Prop :=
  [0x42, 0x4D] <:+ bs ∧ ¬ [0x42, 0x4D] <:+: bs.dropLast

/-- Taking `n` bytes from `s` ends the operation in progress in `t`, and no fewer do. -/
def EndsAfter (n : Nat) (s t : State) : Prop :=
  takeN n s = some t ∧ t.block.st = .idle ∧ ∀ k < n, ∀ u, takeN k s = some u → u.block.st ≠ .idle

/-- A public operation has failed with Timeout (R179, R182, R183): the block is idle with TIMEOUT, the transport closed,
the failure reported, and `more` is what the host still has to do. -/
structure State.FailedOnTimeout (more : List Line) (t : State) : Prop where
  idle : t.block.st = .idle
  err : t.block.err = .timeout
  closed : t.linkOpen = false
  reported : t.report = .failed .timeout
  script : t.script = more

/-- From `s` the machine comes to wait in `w`, RX used up (R116); an Abort fired then leads it to `t`. -/
def AbortsFrom (s w t : State) : Prop :=
  w.rx = [] ∧ step w = .next w ∧ (∃ n, Sys2Proof.core.run n s = .next w) ∧
    ∃ n, Sys2Proof.core.run n { w with turns := [.present .abort []] } = .next t

/-- The five operations that transmit (R154). -/
def transmits : Instr → Bool
  | .txSleep => true
  | .txWake => true
  | .txPassive => true
  | .txActive => true
  | .txRead => true
  | .sync => false
  | .collect => false
  | .validate => false
  | .drain => false
  | .reserved0 => false
  | .reserved5 => false
  | .reserved6 => false
  | .reserved7 => false
  | .reservedD => false
  | .reservedE => false
  | .reservedF => false
  | .abort => false
  | .reset => false
  | .cmdSleep => false
  | .cmdWake => false
  | .cmdSetModePassive => false
  | .cmdSetModeActive => false
  | .cmdRequestRead => false
  | .dataFrame _ _ _ _ _ _ _ => false
  | .ack _ => false

/-- The seven reserved codes (R85). -/
def reservedCodes : List Instr :=
  [.reserved0, .reserved5, .reserved6, .reserved7, .reservedD, .reservedE, .reservedF]

/-- The exact sum of bytes as numbers (R131 before it is put in 16 bits). -/
def natSum (bs : List Byte) : Nat := (bs.map BitVec.toNat).sum

end Sys2Proof.Machine
end

