-- ==== Sys2Proof/Certificates/Slice0/Obligations.lean ====
section
/-! DEFINITION. The statements, from the numbered rules of spec/. In every equation `exec i s = .next { s with … }` the
fields that are not named keep their values: the equation is also the instruction's frame. -/

open Sys2Proof Sys2Proof.Machine

/-! ### Encoding -/

/-- Decoding an encoded well-formed instruction gives it back (R70, R71, R78, R79, R84; the byte an operation word stands
in is the model's choice, log entry 13). -/
def Obligations.DecodeOfEncode : Prop :=
  ∀ i : Instr, i.wellFormed = true → decode i.channel (encode i) = .ok i

/-- What the decoder accepts on a channel is the encoding of one well-formed instruction of that channel (R70, R71, R78,
R79, R84; that an operation byte has zero high bits and any other is refused is the model's choice, log entry 13). -/
def Obligations.EncodeOfDecode : Prop :=
  ∀ (c : Channel) (bs : List Byte) (i : Instr), decode c bs = .ok i →
    i.wellFormed = true ∧ i.channel = c ∧ encode i = bs

/-- The words of R84, R78, R71 and R79, written out (as numbers with offset 0 the most significant byte, log entry 18). -/
def Obligations.SpecWordsDecode : Prop :=
  ([0x0, 0x1, 0x2, 0x3, 0x4, 0x5, 0x6, 0x7].map (decodeTableWord 4) =
    [some .reserved0, some .sync, some .collect, some .validate, some .drain, some .reserved5, some .reserved6,
      some .reserved7]) ∧
  ([0x8, 0x9, 0xA, 0xB, 0xC, 0xD, 0xE, 0xF].map (decodeTableWord 4) =
    [some .txSleep, some .txWake, some .txPassive, some .txActive, some .txRead, some .reservedD, some .reservedE,
      some .reservedF]) ∧
  ([0x424DE400000173, 0x424DE400010174, 0x424DE100000170, 0x424DE100010171, 0x424DE200000171].map
      (decodeTableWord 56) =
    [some .cmdSleep, some .cmdWake, some .cmdSetModePassive, some .cmdSetModeActive, some .cmdRequestRead]) ∧
  decodeTableWord 256 0x424D001C000100020003000400050006000700080009000A000B000C000000F9 =
    some (.dataFrame 0x00 0x1C [1, 2, 3, 4, 5, 6, 7, 8, 9, 10, 11, 12] 0x00 0x00 0x00 0xF9) ∧
  decodeTableWord 64 0x0102030405060708 = some (.ack [1, 2, 3, 4, 5, 6, 7, 8])

/-- What is no instruction of the table is rejected, and why. That it is rejected, by name, is the model's choice (log
entry 13); R70, R71, R78 and R83 give the lengths, the marker, the five commands and the four bits it is held to. -/
def Obligations.DecoderRejects : Prop :=
  ∀ bs : List Byte,
    (bs.length ≠ 1 → decode .op bs = .error .wrongLength) ∧
    (∀ b : Byte, bs = [b] → 16 ≤ b.toNat → decode .op bs = .error .notFourBits) ∧
    (bs.length ≠ 7 → decode .cmd bs = .error .wrongLength) ∧
    (bs.length = 7 → bs ∉ commandFrames → decode .cmd bs = .error .unknownCommand) ∧
    (bs.length ≠ 32 → decode .data bs = .error .wrongLength) ∧
    (bs.length = 32 → bs.take 2 ≠ [0x42, 0x4D] → decode .data bs = .error .noMarker) ∧
    (bs.length ≠ 8 → decode .ack bs = .error .wrongLength) ∧
    (bs ≠ [] → decode .abort bs = .error .wrongLength ∧ decode .reset bs = .error .wrongLength)

/-! ### Fetching -/

/-- A step runs the instruction its bits decode to: presented on a channel; the oldest frame of TX when the transport
carries it; the host's next line when the block is idle. Around `exec` a step only takes the turn, or the line, off its
list (turns and script lines are the model's own fields, log entry 4). -/
def Obligations.StepRunsDecodedInstruction : Prop :=
  (∀ (s : State) (c : Channel) (bs : List Byte) (i : Instr) (rest : List Turn),
    s.turns = .present c bs :: rest → decode c bs = .ok i → step s = exec i { s with turns := rest }) ∧
  (∀ (s : State) (i : Instr) (rest : List Turn),
    s.turns = .carry :: rest → 7 ≤ s.tx.length → decode .cmd (s.tx.take 7) = .ok i →
      step s = exec i { s with turns := rest }) ∧
  (∀ (s : State) (code : BitVec 4) (rest : List Line),
    s.turns = [] → s.block.st = .idle → s.script = .issue code :: rest →
      step s = exec (decodeOp code) { s with script := rest })

/-- A word of the table put where the next step fetches it is run by that step (the model's own way of placing it, log
entry 4). -/
def Obligations.FetchedTableWordRuns : Prop :=
  ∀ (s : State) (nbits w : Nat) (i : Instr), decodeTableWord nbits w = some i →
    step (s.withFetchWord nbits w) = exec i { s.withFetchWord nbits w with turns := s.turns }

/-! ### The operations -/

/-- R100: SYNC, accepted in any idle state. -/
def Obligations.SyncAccepted : Prop :=
  ∀ s : State, s.block.st = .idle →
    exec .sync s = .next { s with block := { s.block with
      err := .none, fbCnt := 0, ckValid := false, ckOk := false, scanCnt := 0, st := .hunt } }

/-- R107: COLLECT goes on when `fb_cnt = 2`, and else is SEQ and nothing more. -/
def Obligations.CollectAccepted : Prop :=
  ∀ s : State, s.block.st = .idle →
    (s.block.fbCnt = 2 → exec .collect s = .next { s with block := { s.block with err := .none, st := .collect } }) ∧
    (s.block.fbCnt ≠ 2 → exec .collect s = .next { s with block := { s.block with err := .seq } })

/-- R112: DRAIN, accepted in any idle state. -/
def Obligations.DrainAccepted : Prop :=
  ∀ s : State, s.block.st = .idle →
    exec .drain s = .next { s with block := { s.block with err := .none, ackCnt := 0, st := .drain } }

/-- R130 to R134: with the 32 bytes `frame` in FB, VALIDATE writes their exact sum over offsets 0 to 29 and the verdict
of its low 8 bits against offset 31; without a whole frame it is SEQ and nothing more. -/
def Obligations.ValidateGivesVerdict : Prop :=
  ∀ s : State, s.block.st = .idle →
    (s.block.fbCnt ≠ 32 → exec .validate s = .next { s with block := { s.block with err := .seq } }) ∧
    (s.block.fbCnt = 32 → ∀ frame : List Byte, frame.length = 32 →
      (∀ i < 32, s.block.fb.read i = frame[i]?) →
      exec .validate s = .next { s with block := { s.block with
        sum := BitVec.ofNat 16 (natSum (frame.take 30))
        ckValid := true
        ckOk := decide (natSum (frame.take 30) % 256 = (frame.getD 31 0).toNat)
        err := if natSum (frame.take 30) % 256 = (frame.getD 31 0).toNat then .none else .checksum } })

/-- R154 to R159: each TX operation, accepted in any idle state, pushes its seven bytes, clears `ERR` and touches
nothing else (R162). -/
def Obligations.TransmitPushesItsFrame : Prop :=
  ∀ s : State, s.block.st = .idle →
    let pushed (f : List Byte) : Host.Outcome State Fault Refusal :=
      .next { s with tx := s.tx ++ f, block := { s.block with err := .none } }
    exec .txSleep s = pushed [0x42, 0x4D, 0xE4, 0x00, 0x00, 0x01, 0x73] ∧
    exec .txWake s = pushed [0x42, 0x4D, 0xE4, 0x00, 0x01, 0x01, 0x74] ∧
    exec .txPassive s = pushed [0x42, 0x4D, 0xE1, 0x00, 0x00, 0x01, 0x70] ∧
    exec .txActive s = pushed [0x42, 0x4D, 0xE1, 0x00, 0x01, 0x01, 0x71] ∧
    exec .txRead s = pushed [0x42, 0x4D, 0xE2, 0x00, 0x00, 0x01, 0x71]

/-- R172: each of the seven reserved codes, accepted, gives SEQ and nothing else. -/
def Obligations.ReservedCodesGiveSeq : Prop :=
  ∀ s : State, s.block.st = .idle →
    let seqOnly : Host.Outcome State Fault Refusal := .next { s with block := { s.block with err := .seq } }
    exec .reserved0 s = seqOnly ∧ exec .reserved5 s = seqOnly ∧ exec .reserved6 s = seqOnly ∧
    exec .reserved7 s = seqOnly ∧ exec .reservedD s = seqOnly ∧ exec .reservedE s = seqOnly ∧
    exec .reservedF s = seqOnly

/-- R174: while `st != IDLE` no code of the operation port has any effect. -/
def Obligations.BusyBlockTakesNoCode : Prop :=
  ∀ (i : Instr) (s : State), i.channel = .op → s.block.st ≠ .idle → exec i s = .next s

/-- R170: Abort while receiving ends the operation with TIMEOUT; a partial frame goes, `ack_cnt` stays. -/
def Obligations.AbortEndsReceiving : Prop :=
  ∀ s : State,
    (s.block.st = .hunt ∨ s.block.st = .got42 ∨ s.block.st = .collect →
      exec .abort s = .next { s with block := { s.block with
        fbCnt := 0, ckValid := false, ckOk := false, err := .timeout, st := .idle } }) ∧
    (s.block.st = .drain →
      exec .abort s = .next { s with block := { s.block with err := .timeout, st := .idle } })

/-- R171: Abort in IDLE changes nothing, and VALIDATE and the TX operations, complete in their acceptance, leave the
block in IDLE where no Abort can touch them. -/
def Obligations.AbortWhileIdleDoesNothing : Prop :=
  ∀ s : State, s.block.st = .idle →
    exec .abort s = .next s ∧
    ∀ (i : Instr) (t : State), i = .validate ∨ transmits i = true → exec i s = .next t →
      t.block.st = .idle ∧ exec .abort t = .next t

/-- R230, R232: Reset in any state leaves every item of the block at its value there, no byte of FB or ACKB valid, and
the streams and the host as they were. -/
def Obligations.ResetLeavesItsValues : Prop :=
  ∀ s : State, ∃ b : Block, exec .reset s = .next { s with block := b } ∧
    b.st = .idle ∧ b.fbCnt = 0 ∧ b.ackCnt = 0 ∧ b.scanCnt = 0 ∧ b.sum = 0 ∧ b.ckValid = false ∧ b.ckOk = false ∧
    b.err = .none ∧ b.status = 0 ∧ (∀ a, b.fbByte a = none ∧ b.ackByte a = none)

/-! ### The wire formats -/

/-- A command frame that is the oldest of TX leaves it, and nothing else changes; one that is not there does nothing
(R45; the model's reading of these rows, log entry 5). -/
def Obligations.CommandFramesLeaveTx : Prop :=
  ∀ (s : State) (rest : List Byte),
    let left : Host.Outcome State Fault Refusal := .next { s with tx := rest }
    (s.tx = [0x42, 0x4D, 0xE4, 0x00, 0x00, 0x01, 0x73] ++ rest → exec .cmdSleep s = left) ∧
    (s.tx = [0x42, 0x4D, 0xE4, 0x00, 0x01, 0x01, 0x74] ++ rest → exec .cmdWake s = left) ∧
    (s.tx = [0x42, 0x4D, 0xE1, 0x00, 0x00, 0x01, 0x70] ++ rest → exec .cmdSetModePassive s = left) ∧
    (s.tx = [0x42, 0x4D, 0xE1, 0x00, 0x01, 0x01, 0x71] ++ rest → exec .cmdSetModeActive s = left) ∧
    (s.tx = [0x42, 0x4D, 0xE2, 0x00, 0x00, 0x01, 0x71] ++ rest → exec .cmdRequestRead s = left) ∧
    (∀ i : Instr, i.channel = .cmd → ¬ encode i <+: s.tx → exec i s = .next s)

/-- A data frame or an acknowledgment that arrives stands at the tail of RX in offset order, channels big-endian
(R43, R44, R71, R79; the model's reading of these rows, log entry 5). -/
def Obligations.ArrivingFramesStandInRx : Prop :=
  ∀ s : State,
    (∀ (lenH lenL : Byte) (c0 c1 c2 c3 c4 c5 c6 c7 c8 c9 c10 c11 : Half) (rsvH rsvL ckH ckL : Byte),
      ∃ body : List Byte,
        exec (.dataFrame lenH lenL [c0, c1, c2, c3, c4, c5, c6, c7, c8, c9, c10, c11] rsvH rsvL ckH ckL) s =
          .next { s with rx := s.rx ++ [0x42, 0x4D, lenH, lenL] ++ body ++ [rsvH, rsvL, ckH, ckL] } ∧
        body.length = 24 ∧
        ∀ k < 12, 256 * (body.getD (2 * k) 0).toNat + (body.getD (2 * k + 1) 0).toNat =
          ([c0, c1, c2, c3, c4, c5, c6, c7, c8, c9, c10, c11].getD k 0).toNat) ∧
    (∀ bytes : List Byte, exec (.ack bytes) s = .next { s with rx := s.rx ++ bytes })

/-! ### The event RxByte -/

/-- R101 and the bound of R105: a byte taken in HUNT is counted, saturating, and not stored. -/
def Obligations.RxByteInHunt : Prop :=
  ∀ (s : State) (v : Byte) (rest : List Byte), s.rx = v :: rest → s.block.st = .hunt →
    let n := min (s.block.scanCnt.toNat + 1) 0xFFFF
    let hit := s.syncMax.toNat ≠ 0 ∧ n = s.syncMax.toNat
    takeByte s = .next { s with
      rx := rest
      block := { s.block with
        scanCnt := BitVec.ofNat 16 n
        st := if hit then .idle else if v = 0x42 then .got42 else .hunt
        err := if hit then .timeout else s.block.err } }

/-- R102 and R103 with the bound of R105: a byte taken in GOT42 that does not complete the marker. -/
def Obligations.RxByteInGot42 : Prop :=
  ∀ (s : State) (v : Byte) (rest : List Byte), s.rx = v :: rest → s.block.st = .got42 → v ≠ 0x4D →
    let n := min (s.block.scanCnt.toNat + 1) 0xFFFF
    let hit := s.syncMax.toNat ≠ 0 ∧ n = s.syncMax.toNat
    takeByte s = .next { s with
      rx := rest
      block := { s.block with
        scanCnt := BitVec.ofNat 16 n
        st := if hit then .idle else if v = 0x42 then .got42 else .hunt
        err := if hit then .timeout else s.block.err } }

/-- R104: `0x4D` in GOT42 completes the marker, whatever the bound; FB[0] and FB[1] hold it, every other cell of FB is as
it was. -/
def Obligations.MarkerCompletes : Prop :=
  ∀ (s : State) (rest : List Byte), s.rx = 0x4D :: rest → s.block.st = .got42 →
    ∃ fb : Memory,
      takeByte s = .next { s with
        rx := rest
        block := { s.block with
          scanCnt := BitVec.ofNat 16 (min (s.block.scanCnt.toNat + 1) 0xFFFF), fb := fb, fbCnt := 2, st := .idle } } ∧
      fb.read 0 = some 0x42 ∧ fb.read 1 = some 0x4D ∧ ∀ a, a ≠ 0 → a ≠ 1 → fb.read a = s.block.fb.read a

/-- R108: a byte taken in COLLECT is stored at `fb_cnt`, whatever it is; the operation ends with offset 31. -/
def Obligations.RxByteInCollect : Prop :=
  ∀ (s : State) (v : Byte) (rest : List Byte), s.rx = v :: rest → s.block.st = .collect → s.block.fbCnt.toNat ≤ 31 →
    ∃ fb : Memory,
      takeByte s = .next { s with
        rx := rest
        block := { s.block with
          fb := fb
          fbCnt := s.block.fbCnt + 1
          st := if s.block.fbCnt.toNat = 31 then .idle else .collect } } ∧
      ∀ a, fb.read a = if a = s.block.fbCnt.toNat then some v else s.block.fb.read a

/-- R113: a byte taken in DRAIN is stored at `ack_cnt`, whatever it is; the operation ends with the eighth. -/
def Obligations.RxByteInDrain : Prop :=
  ∀ (s : State) (v : Byte) (rest : List Byte), s.rx = v :: rest → s.block.st = .drain → s.block.ackCnt.toNat ≤ 7 →
    ∃ ackb : Memory,
      takeByte s = .next { s with
        rx := rest
        block := { s.block with
          ackb := ackb
          ackCnt := s.block.ackCnt + 1
          st := if s.block.ackCnt.toNat = 7 then .idle else .drain } } ∧
      ∀ a, ackb.read a = if a = s.block.ackCnt.toNat then some v else s.block.ackb.read a

/-- R44: in IDLE, or with RX empty, no byte is taken and none is lost. -/
def Obligations.NoByteTakenWithoutRxReady : Prop :=
  ∀ s : State, s.block.st = .idle ∨ s.rx = [] → takeByte s = .next s

/-! ### Whole operations -/

/-- R106: a scan that ends with `ERR = NONE` has taken exactly the bytes up to the end of the first marker, counted them,
and left the marker in FB. -/
def Obligations.SyncStopsAtFirstMarker : Prop :=
  ∀ (s s0 t : State) (n : Nat), s.block.st = .idle → exec .sync s = .next s0 → EndsAfter n s0 t →
    t.block.err = .none →
      n ≤ s.rx.length ∧ EndsAtFirstMarker (s.rx.take n) ∧ t.rx = s.rx.drop n ∧
      t.block.scanCnt.toNat = min n 0xFFFF ∧ t.block.fbCnt = 2 ∧
      t.block.fbByte 0 = some 0x42 ∧ t.block.fbByte 1 = some 0x4D

/-- R104, R105: a scan whose bound admits it does end at the first marker that RX holds. -/
def Obligations.SyncFindsMarkerWithinBound : Prop :=
  ∀ (s s0 : State) (n : Nat), s.block.st = .idle → exec .sync s = .next s0 → n ≤ s.rx.length →
    EndsAtFirstMarker (s.rx.take n) → s.syncMax.toNat = 0 ∨ n ≤ s.syncMax.toNat →
      ∃ t, EndsAfter n s0 t ∧ t.block.err = .none

/-- R105, R202(a), R210: with no marker in its first `SYNC_MAX_BYTES` bytes, a scan ends by TIMEOUT having taken just
these. -/
def Obligations.ScanBoundGivesTimeout : Prop :=
  ∀ (s s0 : State), s.block.st = .idle → exec .sync s = .next s0 → s.syncMax.toNat ≠ 0 →
    s.syncMax.toNat ≤ s.rx.length → ¬ [0x42, 0x4D] <:+: s.rx.take s.syncMax.toNat →
      ∃ t, EndsAfter s.syncMax.toNat s0 t ∧
        t = { s with
          rx := s.rx.drop s.syncMax.toNat
          block := { s.block with
            err := .timeout, fbCnt := 0, ckValid := false, ckOk := false
            scanCnt := BitVec.ofNat 16 s.syncMax.toNat } }

/-- R109: COLLECT takes exactly 30 bytes and leaves them at offsets 2 to 31, `FULL = 1`, no verdict written (and so, in a
state that keeps R28, none there). -/
def Obligations.CollectTakesThirtyBytes : Prop :=
  ∀ (s s0 : State), s.block.st = .idle → s.block.fbCnt = 2 → exec .collect s = .next s0 → 30 ≤ s.rx.length →
    ∃ t, EndsAfter 30 s0 t ∧
      t = { s with rx := s.rx.drop 30, block := { s.block with fb := t.block.fb, fbCnt := 32, err := .none } } ∧
      t.block.full = true ∧ (s.Inv → t.block.ckValid = false) ∧
      ∀ a, t.block.fb.read a = if 2 ≤ a ∧ a ≤ 31 then s.rx[a - 2]? else s.block.fb.read a

/-- R114: DRAIN takes exactly 8 bytes and leaves them in ACKB in order. -/
def Obligations.DrainTakesEightBytes : Prop :=
  ∀ (s s0 : State), s.block.st = .idle → exec .drain s = .next s0 → 8 ≤ s.rx.length →
    ∃ t, EndsAfter 8 s0 t ∧
      t = { s with rx := s.rx.drop 8, block := { s.block with ackb := t.block.ackb, ackCnt := 8, err := .none } } ∧
      ∀ a, t.block.ackb.read a = if a ≤ 7 then s.rx[a]? else s.block.ackb.read a

/-! ### Sums, ports, status -/

/-- R150, R151, R152: the command frame of any three bytes, its checksum the exact sum, big-endian. -/
def Obligations.CommandFrameComposition : Prop :=
  ∀ o p q : Byte, ∃ hi lo : Byte,
    cmdFrame o p q = [0x42, 0x4D, o, p, q, hi, lo] ∧
    256 * hi.toNat + lo.toNat = 0x8F + o.toNat + p.toNat + q.toNat ∧ hi.toNat ≤ 3

/-- R137: the frame sum is the exact sum of its thirty bytes, at most 7650; with the marker in place it lies between
143 and 7283. -/
def Obligations.FrameSumIsExact : Prop :=
  ∀ (b : Block) (bytes : List Byte), b.fbBytes 0 30 = some bytes →
    ∃ total, b.frameSum = some total ∧ total.toNat = natSum bytes ∧ total.toNat ≤ 0x1DE2 ∧
      (bytes.take 2 = [0x42, 0x4D] → 0x8F ≤ total.toNat ∧ total.toNat ≤ 0x1C73)

/-- R135: whatever offset 30 holds, VALIDATE gives the same sum, verdict and error. -/
def Obligations.OffsetThirtyIsIgnored : Prop :=
  ∀ (s t : State) (v : Byte), exec .validate s = .next t →
    exec .validate { s with block := { s.block with fb := s.block.fb.write 30 v } } =
      .next { t with block := { t.block with fb := t.block.fb.write 30 v } }

/-- R139: a second VALIDATE changes nothing. -/
def Obligations.ValidateIsRepeatable : Prop :=
  ∀ s t : State, exec .validate s = .next t → exec .validate t = .next t

/-- R23 with the codes of R11 and R21: the STATUS word as the sum of its fields at their places. -/
def Obligations.StatusWordFields : Prop :=
  ∀ b : Block,
    b.status.toNat =
      (if b.st = .idle then 0 else 1) + 2 * (if 2 ≤ b.fbCnt.toNat then 1 else 0)
        + 4 * (if b.fbCnt.toNat = 32 then 1 else 0) + 8 * b.ckValid.toNat
        + 16 * (match b.st with | .idle => 0 | .hunt => 1 | .got42 => 2 | .collect => 3 | .drain => 4)
        + 128 * b.ckOk.toNat
        + 256 * (match b.err with | .none => 0 | .checksum => 1 | .timeout => 2 | .seq => 3)
        + 1024 * b.ackCnt.toNat

/-- R140, R142: the channel port is open exactly on a good verdict and a selector up to 11, and then returns the
big-endian pair at offsets 4 + 2i, 5 + 2i; shut, it returns no value. -/
def Obligations.ChannelPortReadsPairs : Prop :=
  ∀ (b : Block) (i : BitVec 4),
    (b.chValid i = true ↔ b.ckOk = true ∧ i.toNat ≤ 11) ∧
    (b.chValid i = false → ∀ v, b.portRead (.ch i) ≠ .ok v) ∧
    (∀ hi lo : Byte, b.chValid i = true → b.fbByte (4 + 2 * i.toNat) = some hi →
      b.fbByte (5 + 2 * i.toNat) = some lo →
        ∃ v : Half, b.portRead (.ch i) = .ok v ∧ v.toNat = 256 * hi.toNat + lo.toNat)

/-- R24 with R17: in a block that keeps R28 a port answers exactly when the table of R24 says it is valid (that it answers
a fault otherwise is log entry 11). -/
def Obligations.PortsAnswerExactlyWhenValid : Prop :=
  ∀ (bound : ScanBound) (b : Block), b.Inv bound →
    ∀ p : Port, (∃ v, b.portRead p = .ok v) ↔ b.portValid p = true

/-- R24's column "returns", port by port: STATUS, SUM, SCAN_CNT and FB_CNT return the item itself, a valid byte of FB or
ACKB is the cell at the selector; and R54: what `CH[i]` returns is the pair of the two reads of the FB port. -/
def Obligations.PortsReturnTheirItems : Prop :=
  ∀ b : Block,
    b.portRead .status = .ok b.status ∧ b.portRead .sum = .ok b.sum ∧ b.portRead .scanCnt = .ok b.scanCnt ∧
    b.portRead .fbCnt = .ok b.fbCnt ∧
    (∀ (a : BitVec 5) (v : Byte), b.portRead (.fb a) = .ok v ↔
      a.toNat < b.fbCnt.toNat ∧ b.fb.read a.toNat = some v) ∧
    (∀ (a : BitVec 3) (v : Byte), b.portRead (.ackb a) = .ok v ↔
      a.toNat < b.ackCnt.toNat ∧ b.ackb.read a.toNat = some v) ∧
    (∀ (i : BitVec 4) (v : Half), b.portRead (.ch i) = .ok v → ∃ hi lo : Byte,
      b.portRead (.fb (BitVec.ofNat 5 (4 + 2 * i.toNat))) = .ok hi ∧
      b.portRead (.fb (BitVec.ofNat 5 (5 + 2 * i.toNat))) = .ok lo ∧ v.toNat = 256 * hi.toNat + lo.toNat)

/-! ### Frames over the whole instruction set -/

/-- R48: no instruction writes FB or ACKB (Reset leaves them without values), RxByte writes only where R104, R108 and
R113 say, and a frame that stands in FB reads the same through every instruction but SYNC and Reset while the block is
idle or drains, and through every byte of a DRAIN. -/
def Obligations.OnlyRxByteWritesTheArrays : Prop :=
  (∀ (i : Instr) (s t : State), i ≠ .reset → exec i s = .next t →
    t.block.fb = s.block.fb ∧ t.block.ackb = s.block.ackb) ∧
  (∀ s t : State, takeByte s = .next t → ∀ a,
    (t.block.fb.read a ≠ s.block.fb.read a →
      (s.block.st = .got42 ∧ (a = 0 ∨ a = 1)) ∨ (s.block.st = .collect ∧ a = s.block.fbCnt.toNat)) ∧
    (t.block.ackb.read a ≠ s.block.ackb.read a → s.block.st = .drain ∧ a = s.block.ackCnt.toNat) ∧
    (s.block.st = .idle ∨ s.block.st = .drain → t.block.fbByte a = s.block.fbByte a)) ∧
  (∀ (i : Instr) (s t : State), s.block.st = .idle ∨ s.block.st = .drain → i ≠ .sync → i ≠ .reset →
    exec i s = .next t → ∀ a, t.block.fbByte a = s.block.fbByte a)

/-- R10's column "written by" for the counters and SUM: which instruction, and which RxByte, may change each. -/
def Obligations.CountersHaveNamedWriters : Prop :=
  (∀ (i : Instr) (s t : State), exec i s = .next t →
    (t.block.sum ≠ s.block.sum → i = .validate ∨ i = .reset) ∧
    (t.block.scanCnt ≠ s.block.scanCnt → i = .sync ∨ i = .reset) ∧
    (t.block.ackCnt ≠ s.block.ackCnt → i = .drain ∨ i = .reset) ∧
    (t.block.fbCnt ≠ s.block.fbCnt → i = .sync ∨ i = .abort ∨ i = .reset)) ∧
  (∀ s t : State, takeByte s = .next t →
    t.block.sum = s.block.sum ∧
    (t.block.scanCnt ≠ s.block.scanCnt → s.block.st = .hunt ∨ s.block.st = .got42) ∧
    (t.block.ackCnt ≠ s.block.ackCnt → s.block.st = .drain) ∧
    (t.block.fbCnt ≠ s.block.fbCnt → s.block.st = .got42 ∨ s.block.st = .collect))

/-- R143: when the verdict goes away, and that nothing else takes it away. -/
def Obligations.VerdictLifetime : Prop :=
  (∀ s t : State, exec .sync s = .next t → s.block.st = .idle → t.block.ckValid = false ∧ t.block.ckOk = false) ∧
  (∀ s t : State, exec .abort s = .next t → s.block.st = .hunt ∨ s.block.st = .got42 ∨ s.block.st = .collect →
    t.block.ckValid = false ∧ t.block.ckOk = false) ∧
  (∀ s t : State, exec .abort s = .next t → s.block.st = .idle ∨ s.block.st = .drain →
    t.block.ckValid = s.block.ckValid ∧ t.block.ckOk = s.block.ckOk) ∧
  (∀ s t : State, exec .reset s = .next t → t.block.ckValid = false ∧ t.block.ckOk = false) ∧
  (∀ s t : State, exec .validate s = .next t → s.block.fbCnt ≠ 32 →
    t.block.ckValid = s.block.ckValid ∧ t.block.ckOk = s.block.ckOk) ∧
  (∀ (i : Instr) (s t : State), exec i s = .next t → i ≠ .sync → i ≠ .abort → i ≠ .reset → i ≠ .validate →
    t.block.ckValid = s.block.ckValid ∧ t.block.ckOk = s.block.ckOk) ∧
  (∀ s t : State, takeByte s = .next t → t.block.ckValid = s.block.ckValid ∧ t.block.ckOk = s.block.ckOk)

/-- What lies outside the block (R45, R53, R160, R162): no instruction touches the parameter, the host or the order of
moves; only the TX operations and the command frames touch TX, only arriving frames touch RX; and the wire formats do
not touch the block. What the wire formats do is the model's reading of those rows (log entry 5); the fields of the host
and of the order of moves are the model's (log entries 4 and 7). -/
def Obligations.StreamsAndHostFrame : Prop :=
  ∀ (i : Instr) (s t : State), exec i s = .next t →
    (t.syncMax = s.syncMax ∧ t.mode = s.mode ∧ t.linkOpen = s.linkOpen ∧ t.script = s.script ∧ t.turns = s.turns ∧
      t.report = s.report) ∧
    (transmits i = false → i.channel ≠ .cmd → t.tx = s.tx) ∧
    (i.channel ≠ .data → i.channel ≠ .ack → t.rx = s.rx) ∧
    (i.channel = .cmd ∨ i.channel = .data ∨ i.channel = .ack → t.block = s.block)

/-- R10: two machines that agree on the ten items behave the same under the same event, whatever surrounds the block: the
same ten items afterwards, and the same bytes pushed to TX (a command frame's leaving TX is the transport's act, log
entry 5). -/
def Obligations.TenItemsDetermineTheBlock : Prop :=
  (∀ (i : Instr) (s t s' : State), s.block = t.block → exec i s = .next s' →
    ∃ t', exec i t = .next t' ∧ t'.block = s'.block ∧
      (i.channel ≠ .cmd → ∃ pushed : List Byte, s'.tx = s.tx ++ pushed ∧ t'.tx = t.tx ++ pushed)) ∧
  (∀ (s t s' : State) (v : Byte) (r r' : List Byte), s.block = t.block → s.syncMax = t.syncMax →
    s.rx = v :: r → t.rx = v :: r' → takeByte s = .next s' →
      ∃ t', takeByte t = .next t' ∧ t'.block = s'.block ∧ s'.tx = s.tx ∧ t'.tx = t.tx)

/-- R173: the three ways to get SEQ, and that each writes `ERR` alone. -/
def Obligations.SeqHasThreeCauses : Prop :=
  ∀ (i : Instr) (s t : State), i.channel = .op → s.block.st = .idle → exec i s = .next t →
    (t.block.err = .seq ↔
      i ∈ reservedCodes ∨ (i = .collect ∧ s.block.fbCnt ≠ 2) ∨ (i = .validate ∧ s.block.fbCnt ≠ 32)) ∧
    (t.block.err = .seq → t = { s with block := { s.block with err := .seq } })

/-- R201: CHECKSUM arises in VALIDATE alone, and exactly when the low byte of the frame sum is not the compared byte. -/
def Obligations.ChecksumHasOneCause : Prop :=
  (∀ (i : Instr) (s t : State), exec i s = .next t → s.block.err ≠ .checksum → t.block.err = .checksum →
    i = .validate) ∧
  (∀ s t : State, takeByte s = .next t → s.block.err ≠ .checksum → t.block.err ≠ .checksum) ∧
  (∀ (s t : State) (total : Half) (ck : Byte), s.block.st = .idle → s.block.fbCnt = 32 →
    s.block.frameSum = some total → s.block.fb.read 31 = some ck → exec .validate s = .next t →
      (t.block.err = .checksum ↔ total.toNat % 256 ≠ ck.toNat))

/-- R202: TIMEOUT comes from an Abort of a receiving operation or from a byte of a scan that reaches a bound other
than 0. -/
def Obligations.TimeoutHasTwoCauses : Prop :=
  (∀ (i : Instr) (s t : State), exec i s = .next t → s.block.err ≠ .timeout → t.block.err = .timeout →
    i = .abort ∧ s.block.st ≠ .idle) ∧
  (∀ s t : State, takeByte s = .next t → s.block.err ≠ .timeout → t.block.err = .timeout →
    (s.block.st = .hunt ∨ s.block.st = .got42) ∧ s.syncMax.toNat ≠ 0 ∧ t.block.scanCnt.toNat = s.syncMax.toNat ∧
      t.block.fbCnt = s.block.fbCnt ∧ t.block.st = .idle)

/-- R205: an accepted code starts from `ERR = NONE`, so an earlier error has no influence on it. -/
def Obligations.EarlierErrorHasNoInfluence : Prop :=
  ∀ (i : Instr) (s : State) (e : Err), i.channel = .op → s.block.st = .idle →
    exec i { s with block := { s.block with err := e } } = exec i s

/-- R115: every change of `st`, by instruction and by RxByte. -/
def Obligations.TransitionTable : Prop :=
  (∀ (i : Instr) (s t : State), exec i s = .next t →
    (i = .reset ∨ i = .abort → t.block.st = .idle) ∧
    (s.block.st = .idle → i = .sync → t.block.st = .hunt) ∧
    (s.block.st = .idle → i = .collect → t.block.st = if s.block.fbCnt = 2 then .collect else .idle) ∧
    (s.block.st = .idle → i = .drain → t.block.st = .drain) ∧
    (s.block.st = .idle → i ≠ .sync → i ≠ .collect → i ≠ .drain → t.block.st = .idle) ∧
    (s.block.st ≠ .idle → i ≠ .abort → i ≠ .reset → t.block.st = s.block.st)) ∧
  (∀ (s t : State) (v : Byte) (rest : List Byte), s.rx = v :: rest → takeByte s = .next t →
    (t.block.st =
      if s.block.st = .idle then .idle
      else if s.block.st = .collect then (if s.block.fbCnt.toNat = 31 then .idle else .collect)
      else if s.block.st = .drain then (if s.block.ackCnt.toNat = 7 then .idle else .drain)
      else if s.block.st = .got42 ∧ v = 0x4D then .idle
      else if s.syncMax.toNat ≠ 0 ∧ t.block.scanCnt.toNat = s.syncMax.toNat then .idle
      else if v = 0x42 then .got42
      else .hunt))

/-! ### Invariants and safety -/

/-- The machine after Reset keeps the invariant, whatever the parameter and whatever RX holds. -/
def Obligations.ResetHasInvariant : Prop :=
  ∀ (bound : ScanBound) (rx : List Byte), (State.resetWith bound rx).Inv

/-- Every step keeps the invariant: R28 for the block, canonical arrays within their spaces, every valid byte written,
TX a sequence of whole command frames. -/
def Obligations.StepKeepsInvariant : Prop :=
  ∀ s t : State, s.Inv → step s = .next t → t.Inv

/-- R28: what holds in every state reached from Reset, for any parameter, RX, host script and order of moves. -/
def Obligations.ReachableStatesKeepR28 : Prop :=
  ∀ (bound : ScanBound) (rx : List Byte) (script : List Line) (turns : List Turn) (n : Nat) (t : State),
    Sys2Proof.core.run n { State.resetWith bound rx with script := script, turns := turns } = .next t →
      (t.block.fbCnt.toNat = 0 ∨ (2 ≤ t.block.fbCnt.toNat ∧ t.block.fbCnt.toNat ≤ 32)) ∧
      (t.block.st = .hunt ∨ t.block.st = .got42 →
        t.block.fbCnt = 0 ∧ t.block.ckValid = false ∧ t.block.ckOk = false) ∧
      (t.block.st = .collect → 2 ≤ t.block.fbCnt.toNat ∧ t.block.fbCnt.toNat ≤ 31 ∧ t.block.ckValid = false) ∧
      (t.block.st = .drain → t.block.ackCnt.toNat ≤ 7) ∧
      (2 ≤ t.block.fbCnt.toNat → t.block.fbByte 0 = some 0x42 ∧ t.block.fbByte 1 = some 0x4D) ∧
      (t.block.ckOk = true → t.block.ckValid = true ∧ t.block.fbCnt.toNat = 32 ∧
        ∃ (bytes : List Byte) (ck : Byte), t.block.fbBytes 0 30 = some bytes ∧ t.block.fbByte 31 = some ck ∧
          t.block.sum.toNat = natSum bytes ∧ t.block.sum.toNat % 256 = ck.toNat) ∧
      (t.block.ckValid = true → t.block.fbCnt.toNat = 32) ∧
      (t.block.st ≠ .idle → t.block.err = .none)

/-- In a state that keeps the invariant every instruction and every taking of a byte completes, and a step can fault only
where the host returns a record whose channels are shut: that this is a fault is the model's choice (log entry 11), and so
is the host's line that returns the record (log entry 7); R141 says the port gives nothing there. -/
def Obligations.InvariantExcludesFaults : Prop :=
  ∀ s : State, s.Inv →
    (∀ i : Instr, ∃ t, exec i s = .next t) ∧ (∃ t, takeByte s = .next t) ∧
    (∀ f, step s = .fault f → f = .channelNotValid ∧ ∃ rest, s.script = .ret :: rest)

/-- R3: the parameter is an argument of the model: no step changes the field that holds it (log entry 1). -/
def Obligations.StepKeepsParameter : Prop :=
  ∀ s t : State, step s = .next t → t.syncMax = s.syncMax

/-! ### Waiting, fairness, priority -/

/-- R116: a receiving block waits for as long as RX is silent and the host only waits for it; of all instructions only
Abort and Reset change it meanwhile (a wait is a step to the same state, log entry 10). -/
def Obligations.SilentLineBlocks : Prop :=
  (∀ s : State, s.block.st ≠ .idle → s.rx = [] → s.turns = [] →
    (∀ l rest, s.script = l :: rest → (∃ code, l = .issue code) ∨ l = .await ∨ l = .check ∨ l = .reset) →
      ∀ n, Sys2Proof.core.run n s = .next s) ∧
  (∀ (i : Instr) (s t : State), s.block.st ≠ .idle → exec i s = .next t → t.block ≠ s.block →
    i = .abort ∨ i = .reset)

/-- R246's fairness as the model has it: when the listed moves are used up, a byte that can be taken is taken by the next
step (the order without listed moves is the model's choice, log entry 15). -/
def Obligations.WaitingByteIsTaken : Prop :=
  ∀ (s : State) (v : Byte) (rest : List Byte), s.turns = [] → s.rx = v :: rest → s.block.st ≠ .idle →
    step s = takeByte s ∧ ∀ t, step s = .next t → t.rx = rest

/-- R207, with a period written as one turn (log entry 12). Reset comes first and alone. Without it, the events sampled
happen one after the other, Abort, RxByte, OpAccept, each at the state the one before it left. So an Abort wins over the
byte, which is not taken and stays in RX, and a code sampled with it is accepted after it. -/
def Obligations.PeriodOrder : Prop :=
  (∀ (s : State) (p : Sampled) (rest : List Turn), s.turns = .period p :: rest → p.reset = true →
    Sys2Proof.core.run 2 s = .next { s with turns := rest, block := Block.reset }) ∧
  (∀ (s s1 s2 s3 : State) (p : Sampled) (rest : List Turn), s.turns = .period p :: rest → p.reset = false →
    (if p.abort then exec .abort { s with turns := rest } else .next { s with turns := rest }) = .next s1 →
    (if p.rx then takeByte s1 else .next s1) = .next s2 →
    (match p.op with
      | some code => exec (decodeOp code) s2
      | none => .next s2) = .next s3 →
      ∃ n, Sys2Proof.core.run n s = .next s3) ∧
  (∀ (s : State) (p : Sampled) (rest : List Turn), s.turns = .period p :: rest → p.reset = false → p.abort = true →
    s.block.st ≠ .idle →
      ∃ n t, Sys2Proof.core.run n s = .next t ∧ t.block.err = .timeout ∧ t.block.st = .idle ∧ t.rx = s.rx ∧
        (∀ code, p.op = some code → Sys2Proof.core.run (n + 1) s = exec (decodeOp code) { t with turns := rest }) ∧
        (p.op = none → t.turns = rest))

/-! ### The host's sequences (the host's lines are the model's own record of R179 to R183, log entries 4 and 7) -/

/-- R179: READ, on any stream that holds noise without a marker and then a frame, ends with the frame's twelve channels
when its checksum holds and with CHECKSUM and no record when it does not; it takes exactly those bytes, sends
REQUEST_READ first exactly when the host believes the sensor passive, and leaves the transport closed. -/
def Obligations.ReadReturnsTheFramesChannels : Prop :=
  ∀ (s : State) (noise frame rest : List Byte),
    s.turns = [] → s.block.st = .idle → s.script = [.pseudo .read] → s.rx = noise ++ frame ++ rest →
    frame.length = 32 → EndsAtFirstMarker (noise ++ frame.take 2) →
    s.syncMax.toNat = 0 ∨ noise.length + 2 ≤ s.syncMax.toNat →
      ∃ n t, Sys2Proof.core.run n s = .next t ∧ t.script = [] ∧ t.block.st = .idle ∧ t.rx = rest ∧
        t.linkOpen = false ∧
        t.tx = s.tx ++ (if s.mode = .passive then [0x42, 0x4D, 0xE2, 0x00, 0x00, 0x01, 0x71] else []) ∧
        t.report =
          if natSum (frame.take 30) % 256 = (frame.getD 31 0).toNat then
            .record ((List.range 12).map fun i => be16 (frame.getD (4 + 2 * i) 0) (frame.getD (5 + 2 * i) 0))
          else .failed .checksum

/-- R182: SET_MODE sets the host's Mode, sends the mode's command, drains eight bytes into ACKB and closes the
transport. -/
def Obligations.SetModeSendsAndDrains : Prop :=
  ∀ (s : State) (m : Mode) (ack rest : List Byte),
    s.turns = [] → s.block.st = .idle → s.script = [.pseudo (.setMode m)] → s.rx = ack ++ rest → ack.length = 8 →
      ∃ n t, Sys2Proof.core.run n s = .next t ∧ t.script = [] ∧ t.mode = m ∧ t.rx = rest ∧ t.linkOpen = false ∧
        t.report = .done ∧ (∀ k < 8, t.block.ackByte k = ack[k]?) ∧
        t.tx = s.tx ++ (match m with
          | .passive => [0x42, 0x4D, 0xE1, 0x00, 0x00, 0x01, 0x70]
          | .active => [0x42, 0x4D, 0xE1, 0x00, 0x01, 0x01, 0x71])

/-- R179, R182, R183, the exits on TIMEOUT: the transport is closed, the failure is reported and no record, Mode stays,
and the host's script goes on behind the sequence. First for an Abort at any moment of a receiving operation that a
`check` follows; then for the whole sequences: READ by the bound, READ aborted in a silent scan, READ aborted in a silent
COLLECT, SET_MODE aborted in a silent DRAIN. -/
def Obligations.SessionsFailOnTimeout : Prop :=
  (∀ (s : State) (more : List Line), s.turns = [.present .abort []] → s.block.st ≠ .idle →
    s.script = .await :: .check :: more →
      ∃ t, Sys2Proof.core.run 3 s = .next t ∧ t.FailedOnTimeout (abandon more) ∧ t.mode = s.mode ∧ t.rx = s.rx ∧
        t.tx = s.tx) ∧
  (∀ (s : State) (more : List Line), s.turns = [] → s.block.st = .idle → s.script = .pseudo .read :: more →
    let sent := s.tx ++ (if s.mode = .passive then [0x42, 0x4D, 0xE2, 0x00, 0x00, 0x01, 0x71] else [])
    (s.syncMax.toNat ≠ 0 → s.syncMax.toNat ≤ s.rx.length → ¬ [0x42, 0x4D] <:+: s.rx.take s.syncMax.toNat →
      ∃ n t, Sys2Proof.core.run n s = .next t ∧ t.FailedOnTimeout more ∧ t.mode = s.mode ∧
        t.rx = s.rx.drop s.syncMax.toNat ∧ t.tx = sent) ∧
    (¬ [0x42, 0x4D] <:+: s.rx → s.syncMax.toNat = 0 ∨ s.rx.length < s.syncMax.toNat →
      ∃ w t, AbortsFrom s w t ∧ (w.block.st = .hunt ∨ w.block.st = .got42) ∧ t.FailedOnTimeout more ∧
        t.mode = s.mode ∧ t.tx = sent) ∧
    (∀ n, n ≤ s.rx.length → s.rx.length < n + 30 → EndsAtFirstMarker (s.rx.take n) →
      s.syncMax.toNat = 0 ∨ n ≤ s.syncMax.toNat →
        ∃ w t, AbortsFrom s w t ∧ w.block.st = .collect ∧ t.FailedOnTimeout more ∧ t.block.fbCnt = 0 ∧
          t.mode = s.mode ∧ t.tx = sent)) ∧
  (∀ (s : State) (m : Mode) (more : List Line), s.turns = [] → s.block.st = .idle →
    s.script = .pseudo (.setMode m) :: more → s.rx.length < 8 →
      ∃ w t, AbortsFrom s w t ∧ w.block.st = .drain ∧ t.FailedOnTimeout more ∧ t.mode = m ∧
        t.block.ackCnt.toNat = s.rx.length ∧
        t.tx = s.tx ++ (match m with
          | .passive => [0x42, 0x4D, 0xE1, 0x00, 0x00, 0x01, 0x70]
          | .active => [0x42, 0x4D, 0xE1, 0x00, 0x01, 0x01, 0x71]))

/-- R180, R181: SLEEP and WAKE send their command, take nothing from RX and close the transport. -/
def Obligations.SleepAndWakeOnlySend : Prop :=
  ∀ s : State, s.turns = [] → s.block.st = .idle →
    (s.script = [.pseudo .sleep] → ∃ n, Sys2Proof.core.run n s = .next { s with
      script := [], linkOpen := false, report := .done, block := { s.block with err := .none }
      tx := s.tx ++ [0x42, 0x4D, 0xE4, 0x00, 0x00, 0x01, 0x73] }) ∧
    (s.script = [.pseudo .wake] → ∃ n, Sys2Proof.core.run n s = .next { s with
      script := [], linkOpen := false, report := .done, block := { s.block with err := .none }
      tx := s.tx ++ [0x42, 0x4D, 0xE4, 0x00, 0x01, 0x01, 0x74] })
end

