-- ==== Sys2Proof/Laws/State.lean ====
section
/-! SUPPORT. One lemma per field per update of the block and of the machine, so that no proof unfolds a record update. -/

namespace Sys2Proof.Machine

variable (b : Block) (s : State)

/-! ### `Block.clearErr` -/

@[simp] theorem Block.clearErr_st : b.clearErr.st = b.st := rfl
@[simp] theorem Block.clearErr_fbCnt : b.clearErr.fbCnt = b.fbCnt := rfl
@[simp] theorem Block.clearErr_ackCnt : b.clearErr.ackCnt = b.ackCnt := rfl
@[simp] theorem Block.clearErr_scanCnt : b.clearErr.scanCnt = b.scanCnt := rfl
@[simp] theorem Block.clearErr_sum : b.clearErr.sum = b.sum := rfl
@[simp] theorem Block.clearErr_fb : b.clearErr.fb = b.fb := rfl
@[simp] theorem Block.clearErr_ackb : b.clearErr.ackb = b.ackb := rfl
@[simp] theorem Block.clearErr_ckValid : b.clearErr.ckValid = b.ckValid := rfl
@[simp] theorem Block.clearErr_ckOk : b.clearErr.ckOk = b.ckOk := rfl
@[simp] theorem Block.clearErr_err : b.clearErr.err = .none := rfl

/-! ### `Block.raise` -/

@[simp] theorem Block.raise_st (e : Err) : (Block.raise e b).st = .idle := rfl
@[simp] theorem Block.raise_fbCnt (e : Err) : (Block.raise e b).fbCnt = b.fbCnt := rfl
@[simp] theorem Block.raise_ackCnt (e : Err) : (Block.raise e b).ackCnt = b.ackCnt := rfl
@[simp] theorem Block.raise_scanCnt (e : Err) : (Block.raise e b).scanCnt = b.scanCnt := rfl
@[simp] theorem Block.raise_sum (e : Err) : (Block.raise e b).sum = b.sum := rfl
@[simp] theorem Block.raise_fb (e : Err) : (Block.raise e b).fb = b.fb := rfl
@[simp] theorem Block.raise_ackb (e : Err) : (Block.raise e b).ackb = b.ackb := rfl
@[simp] theorem Block.raise_ckValid (e : Err) : (Block.raise e b).ckValid = b.ckValid := rfl
@[simp] theorem Block.raise_ckOk (e : Err) : (Block.raise e b).ckOk = b.ckOk := rfl
@[simp] theorem Block.raise_err (e : Err) : (Block.raise e b).err = e := rfl

/-! ### `Block.goto` -/

@[simp] theorem Block.goto_st (x : St) : (Block.goto x b).st = x := rfl
@[simp] theorem Block.goto_fbCnt (x : St) : (Block.goto x b).fbCnt = b.fbCnt := rfl
@[simp] theorem Block.goto_ackCnt (x : St) : (Block.goto x b).ackCnt = b.ackCnt := rfl
@[simp] theorem Block.goto_scanCnt (x : St) : (Block.goto x b).scanCnt = b.scanCnt := rfl
@[simp] theorem Block.goto_sum (x : St) : (Block.goto x b).sum = b.sum := rfl
@[simp] theorem Block.goto_fb (x : St) : (Block.goto x b).fb = b.fb := rfl
@[simp] theorem Block.goto_ackb (x : St) : (Block.goto x b).ackb = b.ackb := rfl
@[simp] theorem Block.goto_ckValid (x : St) : (Block.goto x b).ckValid = b.ckValid := rfl
@[simp] theorem Block.goto_ckOk (x : St) : (Block.goto x b).ckOk = b.ckOk := rfl
@[simp] theorem Block.goto_err (x : St) : (Block.goto x b).err = b.err := rfl

/-! ### `Block.dropFrame` -/

@[simp] theorem Block.dropFrame_st : b.dropFrame.st = b.st := rfl
@[simp] theorem Block.dropFrame_fbCnt : b.dropFrame.fbCnt = 0 := rfl
@[simp] theorem Block.dropFrame_ackCnt : b.dropFrame.ackCnt = b.ackCnt := rfl
@[simp] theorem Block.dropFrame_scanCnt : b.dropFrame.scanCnt = b.scanCnt := rfl
@[simp] theorem Block.dropFrame_sum : b.dropFrame.sum = b.sum := rfl
@[simp] theorem Block.dropFrame_fb : b.dropFrame.fb = b.fb := rfl
@[simp] theorem Block.dropFrame_ackb : b.dropFrame.ackb = b.ackb := rfl
@[simp] theorem Block.dropFrame_ckValid : b.dropFrame.ckValid = false := rfl
@[simp] theorem Block.dropFrame_ckOk : b.dropFrame.ckOk = false := rfl
@[simp] theorem Block.dropFrame_err : b.dropFrame.err = b.err := rfl

/-! ### `Block.clearScan` -/

@[simp] theorem Block.clearScan_st : b.clearScan.st = b.st := rfl
@[simp] theorem Block.clearScan_fbCnt : b.clearScan.fbCnt = b.fbCnt := rfl
@[simp] theorem Block.clearScan_ackCnt : b.clearScan.ackCnt = b.ackCnt := rfl
@[simp] theorem Block.clearScan_scanCnt : b.clearScan.scanCnt = 0 := rfl
@[simp] theorem Block.clearScan_sum : b.clearScan.sum = b.sum := rfl
@[simp] theorem Block.clearScan_fb : b.clearScan.fb = b.fb := rfl
@[simp] theorem Block.clearScan_ackb : b.clearScan.ackb = b.ackb := rfl
@[simp] theorem Block.clearScan_ckValid : b.clearScan.ckValid = b.ckValid := rfl
@[simp] theorem Block.clearScan_ckOk : b.clearScan.ckOk = b.ckOk := rfl
@[simp] theorem Block.clearScan_err : b.clearScan.err = b.err := rfl

/-! ### `Block.countByte` -/

@[simp] theorem Block.countByte_st : b.countByte.st = b.st := rfl
@[simp] theorem Block.countByte_fbCnt : b.countByte.fbCnt = b.fbCnt := rfl
@[simp] theorem Block.countByte_ackCnt : b.countByte.ackCnt = b.ackCnt := rfl
@[simp] theorem Block.countByte_scanCnt : b.countByte.scanCnt = if b.scanCnt = 0xFFFF then 0xFFFF else b.scanCnt + 1 := rfl
@[simp] theorem Block.countByte_sum : b.countByte.sum = b.sum := rfl
@[simp] theorem Block.countByte_fb : b.countByte.fb = b.fb := rfl
@[simp] theorem Block.countByte_ackb : b.countByte.ackb = b.ackb := rfl
@[simp] theorem Block.countByte_ckValid : b.countByte.ckValid = b.ckValid := rfl
@[simp] theorem Block.countByte_ckOk : b.countByte.ckOk = b.ckOk := rfl
@[simp] theorem Block.countByte_err : b.countByte.err = b.err := rfl

/-! ### `Block.storeMarker` -/

@[simp] theorem Block.storeMarker_st : b.storeMarker.st = b.st := rfl
@[simp] theorem Block.storeMarker_fbCnt : b.storeMarker.fbCnt = 2 := rfl
@[simp] theorem Block.storeMarker_ackCnt : b.storeMarker.ackCnt = b.ackCnt := rfl
@[simp] theorem Block.storeMarker_scanCnt : b.storeMarker.scanCnt = b.scanCnt := rfl
@[simp] theorem Block.storeMarker_sum : b.storeMarker.sum = b.sum := rfl
@[simp] theorem Block.storeMarker_fb : b.storeMarker.fb = (b.fb.write 0 Config.marker0).write 1 Config.marker1 := rfl
@[simp] theorem Block.storeMarker_ackb : b.storeMarker.ackb = b.ackb := rfl
@[simp] theorem Block.storeMarker_ckValid : b.storeMarker.ckValid = b.ckValid := rfl
@[simp] theorem Block.storeMarker_ckOk : b.storeMarker.ckOk = b.ckOk := rfl
@[simp] theorem Block.storeMarker_err : b.storeMarker.err = b.err := rfl

/-! ### `Block.clearAck` -/

@[simp] theorem Block.clearAck_st : b.clearAck.st = b.st := rfl
@[simp] theorem Block.clearAck_fbCnt : b.clearAck.fbCnt = b.fbCnt := rfl
@[simp] theorem Block.clearAck_ackCnt : b.clearAck.ackCnt = 0 := rfl
@[simp] theorem Block.clearAck_scanCnt : b.clearAck.scanCnt = b.scanCnt := rfl
@[simp] theorem Block.clearAck_sum : b.clearAck.sum = b.sum := rfl
@[simp] theorem Block.clearAck_fb : b.clearAck.fb = b.fb := rfl
@[simp] theorem Block.clearAck_ackb : b.clearAck.ackb = b.ackb := rfl
@[simp] theorem Block.clearAck_ckValid : b.clearAck.ckValid = b.ckValid := rfl
@[simp] theorem Block.clearAck_ckOk : b.clearAck.ckOk = b.ckOk := rfl
@[simp] theorem Block.clearAck_err : b.clearAck.err = b.err := rfl

/-! ### `Block.giveVerdict` -/

@[simp] theorem Block.giveVerdict_st (x : Half) (ok : Bool) : (Block.giveVerdict x ok b).st = b.st := rfl
@[simp] theorem Block.giveVerdict_fbCnt (x : Half) (ok : Bool) : (Block.giveVerdict x ok b).fbCnt = b.fbCnt := rfl
@[simp] theorem Block.giveVerdict_ackCnt (x : Half) (ok : Bool) : (Block.giveVerdict x ok b).ackCnt = b.ackCnt := rfl
@[simp] theorem Block.giveVerdict_scanCnt (x : Half) (ok : Bool) : (Block.giveVerdict x ok b).scanCnt = b.scanCnt := rfl
@[simp] theorem Block.giveVerdict_sum (x : Half) (ok : Bool) : (Block.giveVerdict x ok b).sum = x := rfl
@[simp] theorem Block.giveVerdict_fb (x : Half) (ok : Bool) : (Block.giveVerdict x ok b).fb = b.fb := rfl
@[simp] theorem Block.giveVerdict_ackb (x : Half) (ok : Bool) : (Block.giveVerdict x ok b).ackb = b.ackb := rfl
@[simp] theorem Block.giveVerdict_ckValid (x : Half) (ok : Bool) : (Block.giveVerdict x ok b).ckValid = true := rfl
@[simp] theorem Block.giveVerdict_ckOk (x : Half) (ok : Bool) : (Block.giveVerdict x ok b).ckOk = ok := rfl
@[simp] theorem Block.giveVerdict_err (x : Half) (ok : Bool) : (Block.giveVerdict x ok b).err = b.err := rfl

/-! ### `State.mapBlock` -/

@[simp] theorem State.mapBlock_block (f : Block → Block) : (s.mapBlock f).block = f s.block := rfl
@[simp] theorem State.mapBlock_syncMax (f : Block → Block) : (s.mapBlock f).syncMax = s.syncMax := rfl
@[simp] theorem State.mapBlock_rx (f : Block → Block) : (s.mapBlock f).rx = s.rx := rfl
@[simp] theorem State.mapBlock_tx (f : Block → Block) : (s.mapBlock f).tx = s.tx := rfl
@[simp] theorem State.mapBlock_mode (f : Block → Block) : (s.mapBlock f).mode = s.mode := rfl
@[simp] theorem State.mapBlock_linkOpen (f : Block → Block) : (s.mapBlock f).linkOpen = s.linkOpen := rfl
@[simp] theorem State.mapBlock_script (f : Block → Block) : (s.mapBlock f).script = s.script := rfl
@[simp] theorem State.mapBlock_turns (f : Block → Block) : (s.mapBlock f).turns = s.turns := rfl
@[simp] theorem State.mapBlock_report (f : Block → Block) : (s.mapBlock f).report = s.report := rfl

/-! ### `State.txPush` -/

@[simp] theorem State.txPush_block (bs : List Byte) : (s.txPush bs).block = s.block := rfl
@[simp] theorem State.txPush_syncMax (bs : List Byte) : (s.txPush bs).syncMax = s.syncMax := rfl
@[simp] theorem State.txPush_rx (bs : List Byte) : (s.txPush bs).rx = s.rx := rfl
@[simp] theorem State.txPush_tx (bs : List Byte) : (s.txPush bs).tx = s.tx ++ bs := rfl
@[simp] theorem State.txPush_mode (bs : List Byte) : (s.txPush bs).mode = s.mode := rfl
@[simp] theorem State.txPush_linkOpen (bs : List Byte) : (s.txPush bs).linkOpen = s.linkOpen := rfl
@[simp] theorem State.txPush_script (bs : List Byte) : (s.txPush bs).script = s.script := rfl
@[simp] theorem State.txPush_turns (bs : List Byte) : (s.txPush bs).turns = s.turns := rfl
@[simp] theorem State.txPush_report (bs : List Byte) : (s.txPush bs).report = s.report := rfl

/-! ### `State.rxAppend` -/

@[simp] theorem State.rxAppend_block (bs : List Byte) : (s.rxAppend bs).block = s.block := rfl
@[simp] theorem State.rxAppend_syncMax (bs : List Byte) : (s.rxAppend bs).syncMax = s.syncMax := rfl
@[simp] theorem State.rxAppend_rx (bs : List Byte) : (s.rxAppend bs).rx = s.rx ++ bs := rfl
@[simp] theorem State.rxAppend_tx (bs : List Byte) : (s.rxAppend bs).tx = s.tx := rfl
@[simp] theorem State.rxAppend_mode (bs : List Byte) : (s.rxAppend bs).mode = s.mode := rfl
@[simp] theorem State.rxAppend_linkOpen (bs : List Byte) : (s.rxAppend bs).linkOpen = s.linkOpen := rfl
@[simp] theorem State.rxAppend_script (bs : List Byte) : (s.rxAppend bs).script = s.script := rfl
@[simp] theorem State.rxAppend_turns (bs : List Byte) : (s.rxAppend bs).turns = s.turns := rfl
@[simp] theorem State.rxAppend_report (bs : List Byte) : (s.rxAppend bs).report = s.report := rfl

/-! ### `State.txCarry` -/

@[simp] theorem State.txCarry_block (f : List Byte) : (s.txCarry f).block = s.block := by
  unfold State.txCarry; split <;> rfl
@[simp] theorem State.txCarry_syncMax (f : List Byte) : (s.txCarry f).syncMax = s.syncMax := by
  unfold State.txCarry; split <;> rfl
@[simp] theorem State.txCarry_rx (f : List Byte) : (s.txCarry f).rx = s.rx := by
  unfold State.txCarry; split <;> rfl
@[simp] theorem State.txCarry_mode (f : List Byte) : (s.txCarry f).mode = s.mode := by
  unfold State.txCarry; split <;> rfl
@[simp] theorem State.txCarry_linkOpen (f : List Byte) : (s.txCarry f).linkOpen = s.linkOpen := by
  unfold State.txCarry; split <;> rfl
@[simp] theorem State.txCarry_script (f : List Byte) : (s.txCarry f).script = s.script := by
  unfold State.txCarry; split <;> rfl
@[simp] theorem State.txCarry_turns (f : List Byte) : (s.txCarry f).turns = s.turns := by
  unfold State.txCarry; split <;> rfl
@[simp] theorem State.txCarry_report (f : List Byte) : (s.txCarry f).report = s.report := by
  unfold State.txCarry; split <;> rfl

/-- What `txCarry` does to TX: the bytes leave it if they are its oldest, else it stays. -/
theorem State.txCarry_tx_of_prefix (f rest : List Byte) (h : s.tx = f ++ rest) : (s.txCarry f).tx = rest := by
  simp [State.txCarry, h]

theorem State.txCarry_of_not_prefix (f : List Byte) (h : ¬ f <+: s.tx) : s.txCarry f = s := by
  simp [State.txCarry, h]

/-! ### The values after Reset (R26) -/

@[simp] theorem Block.reset_st : Block.reset.st = .idle := rfl
@[simp] theorem Block.reset_fbCnt : Block.reset.fbCnt = 0 := rfl
@[simp] theorem Block.reset_ackCnt : Block.reset.ackCnt = 0 := rfl
@[simp] theorem Block.reset_scanCnt : Block.reset.scanCnt = 0 := rfl
@[simp] theorem Block.reset_sum : Block.reset.sum = 0 := rfl
@[simp] theorem Block.reset_fb : Block.reset.fb = [] := rfl
@[simp] theorem Block.reset_ackb : Block.reset.ackb = [] := rfl
@[simp] theorem Block.reset_ckValid : Block.reset.ckValid = false := rfl
@[simp] theorem Block.reset_ckOk : Block.reset.ckOk = false := rfl
@[simp] theorem Block.reset_err : Block.reset.err = .none := rfl

end Sys2Proof.Machine
end

