-- ==== Sys2Proof/Laws/Ops.lean ====
section
/-! SUPPORT. Once for each shared operation: everything it can do. Proofs cite these and unfold no operation. -/

namespace Sys2Proof.Machine

variable {s t : State}

/-- OpAccept in IDLE: the operation's own act, after `ERR <- NONE`. -/
theorem accept_of_idle (act : State → Host.Outcome State Fault Refusal) (h : s.block.st = .idle) :
    accept act s = act (s.mapBlock Block.clearErr) := by
  simp [accept, h]

/-- No OpAccept while busy (R174). -/
theorem accept_of_busy (act : State → Host.Outcome State Fault Refusal) (h : s.block.st ≠ .idle) :
    accept act s = .next s := by
  unfold accept
  split <;> simp_all

/-- If an OpAccept answers a next state, the code was taken in IDLE or nothing happened. -/
theorem accept_cases {act : State → Host.Outcome State Fault Refusal} (h : accept act s = .next t) :
    (s.block.st = .idle ∧ act (s.mapBlock Block.clearErr) = .next t) ∨ (s.block.st ≠ .idle ∧ t = s) := by
  by_cases hi : s.block.st = .idle
  · exact .inl ⟨hi, accept_of_idle act hi ▸ h⟩
  · rw [accept_of_busy act hi] at h
    exact .inr ⟨hi, by cases h; rfl⟩

/-- What `check_bound()` can do (R105). -/
theorem Block.checkBound_cases (bound : ScanBound) (b : Block) :
    (bound.toNat ≠ 0 ∧ b.scanCnt.toNat = bound.toNat ∧ b.checkBound bound = b.raise .timeout) ∨
      (¬(bound.toNat ≠ 0 ∧ b.scanCnt.toNat = bound.toNat) ∧ b.checkBound bound = b) := by
  unfold Block.checkBound
  split
  · rename_i h; exact .inl ⟨h.1, h.2, rfl⟩
  · rename_i h; exact .inr ⟨h, rfl⟩

/-- What storing a byte of COLLECT can do (R108). -/
theorem Block.storeFrameByte_cases {v : Byte} {b b' : Block} (h : b.storeFrameByte v = .ok b') :
    b.fbCnt.toNat < 32 ∧ b' = { b with fb := b.fb.write b.fbCnt.toNat v, fbCnt := b.fbCnt + 1 } := by
  unfold Block.storeFrameByte at h
  split at h
  · cases h; exact ⟨‹_›, rfl⟩
  · cases h

/-- What storing a byte of DRAIN can do (R113). -/
theorem Block.storeAckByte_cases {v : Byte} {b b' : Block} (h : b.storeAckByte v = .ok b') :
    b.ackCnt.toNat < 8 ∧ b' = { b with ackb := b.ackb.write b.ackCnt.toNat v, ackCnt := b.ackCnt + 1 } := by
  unfold Block.storeAckByte at h
  split at h
  · cases h; exact ⟨‹_›, rfl⟩
  · cases h

/-- What a taking of a byte can do (R44): nothing, or RxByte with the oldest byte of RX. -/
theorem takeByte_cases (h : takeByte s = .next t) :
    ((s.rx = [] ∨ s.block.rxReady = false) ∧ t = s) ∨
      ∃ v rest b, s.rx = v :: rest ∧ s.block.rxReady = true ∧ s.block.rxByte s.syncMax v = .ok b ∧
        t = { s with block := b, rx := rest } := by
  unfold takeByte at h
  split at h
  · rename_i hr; cases h; exact .inl ⟨.inl hr, rfl⟩
  · rename_i v rest hr
    split at h
    · rename_i hready
      split at h
      · rename_i b hb; cases h; exact .inr ⟨v, rest, b, hr, hready, hb, rfl⟩
      · cases h
    · rename_i hready
      cases h; exact .inl ⟨.inr (by simpa using hready), rfl⟩

/-- Running bits is running the instruction they decode to, or a refusal by name. -/
theorem runWord_next {c : Channel} {bytes : List Byte} (h : runWord c bytes s = .next t) :
    ∃ i, decode c bytes = .ok i ∧ exec i s = .next t := by
  unfold runWord at h
  split at h
  · exact ⟨_, ‹_›, h⟩
  · cases h

/-- What a step can do: the first turn listed, a taking, or a move of the host. -/
theorem step_cases (h : step s = .next t) :
    (∃ turn rest, s.turns = turn :: rest ∧ runTurn turn { s with turns := rest } = .next t) ∨
      (s.turns = [] ∧ s.rxEnabled = true ∧ takeByte s = .next t) ∨
      (s.turns = [] ∧ s.rxEnabled = false ∧ hostMove s = .next t) := by
  unfold step advance at h
  split at h
  · exact .inl ⟨_, _, ‹_›, h⟩
  · split at h
    · exact .inr (.inl ⟨‹_›, ‹_›, h⟩)
    · rename_i hr; exact .inr (.inr ⟨‹_›, by simpa using hr, h⟩)

/-- The legal values of `SYNC_MAX_BYTES` (R3). -/
theorem ScanBound.toNat_legal (n : ScanBound) : n.toNat = 0 ∨ (2 ≤ n.toNat ∧ n.toNat ≤ 65535) := by
  cases n with
  | unbounded => exact .inl rfl
  | atMost k => right; have := k.isLt; simp only [ScanBound.toNat]; omega

end Sys2Proof.Machine
end

