-- ==== Sys2Proof/Laws/Exec.lean ====
section
/-! SUPPORT. What kind of event an instruction is: every operation word is one acceptance, every wire format one movement
of a stream. -/

namespace Sys2Proof.Machine

variable {s t : State}

/-- What the operation words do when accepted. The other rows of the table are no operations; here they do nothing. -/
def opAct : Instr → State → Host.Outcome State Fault Refusal
  | .sync => syncAct
  | .collect => collectAct
  | .validate => validateAct
  | .drain => drainAct
  | .txSleep => transmitAct 0xE4 0x00 0x00
  | .txWake => transmitAct 0xE4 0x00 0x01
  | .txPassive => transmitAct 0xE1 0x00 0x00
  | .txActive => transmitAct 0xE1 0x00 0x01
  | .txRead => transmitAct 0xE2 0x00 0x00
  | .reserved0 => reservedAct
  | .reserved5 => reservedAct
  | .reserved6 => reservedAct
  | .reserved7 => reservedAct
  | .reservedD => reservedAct
  | .reservedE => reservedAct
  | .reservedF => reservedAct
  | .abort => .next
  | .reset => .next
  | .cmdSleep => .next
  | .cmdWake => .next
  | .cmdSetModePassive => .next
  | .cmdSetModeActive => .next
  | .cmdRequestRead => .next
  | .dataFrame _ _ _ _ _ _ _ => .next
  | .ack _ => .next

/-- Every operation word is one OpAccept (R83, R174). -/
theorem exec_op {i : Instr} (h : i.channel = .op) (s : State) : exec i s = accept (opAct i) s := by
  cases i <;> first | rfl | simp [Instr.channel] at h

/-- A command frame's event is its leaving TX (R45). -/
theorem exec_cmd {i : Instr} (h : i.channel = .cmd) (s : State) : exec i s = .next (s.txCarry (encode i)) := by
  cases i <;> first | rfl | simp [Instr.channel] at h

/-- An arriving frame's event is its standing at the tail of RX (R44). -/
theorem exec_arrival {i : Instr} (h : i.channel = .data ∨ i.channel = .ack) (s : State) :
    exec i s = .next (s.rxAppend (encode i)) := by
  cases i <;> first | rfl | simp [Instr.channel] at h

/-- Where an instruction's event lies: an operation, a strobe, or a movement of a stream. -/
theorem exec_cases (i : Instr) (s : State) :
    (i.channel = .op ∧ exec i s = accept (opAct i) s) ∨ (i = .abort ∧ exec i s = .next (s.mapBlock Block.abort)) ∨
      (i = .reset ∧ exec i s = .next (s.mapBlock fun _ => Block.reset)) ∨
      (i.channel = .cmd ∧ exec i s = .next (s.txCarry (encode i))) ∨
      ((i.channel = .data ∨ i.channel = .ack) ∧ exec i s = .next (s.rxAppend (encode i))) := by
  cases i <;> simp [Instr.channel] <;> rfl

/-- VALIDATE's three ways (R130): SEQ without a whole frame, the verdict with one, a fault where a byte of the frame was
never written. -/
theorem validateAct_cases (h : validateAct s = .next t) :
    (s.block.fbCnt ≠ 32 ∧ t = s.mapBlock (Block.raise .seq)) ∨
      ∃ total ck, s.block.fbCnt = 32 ∧ s.block.frameSum = some total ∧ s.block.fbByte 31 = some ck ∧
        ((sumMatches total ck = true ∧ t = s.mapBlock (Block.giveVerdict total true)) ∨
          (sumMatches total ck = false ∧ t = s.mapBlock fun b => (b.giveVerdict total false).raise .checksum)) := by
  unfold validateAct at h
  split at h
  · rename_i hc
    split at h
    · rename_i total ck h1 h2
      refine .inr ⟨total, ck, hc, h1, h2, ?_⟩
      split at h
      · cases h; exact .inl ⟨‹_›, rfl⟩
      · rename_i hm
        cases h; exact .inr ⟨by simpa using hm, rfl⟩
    · cases h
  · rename_i hc
    cases h; exact .inl ⟨hc, rfl⟩

/-- The frame of what an operation does once accepted: only SYNC writes the counters of a scan and drops the frame, only
VALIDATE writes SUM and gives a verdict, only DRAIN writes `ack_cnt`, none writes FB, ACKB or RX (R48, R160, R162). -/
theorem opAct_frame {i : Instr} (hc : i.channel = .op) (h : opAct i s = .next t) :
    t.syncMax = s.syncMax ∧ t.mode = s.mode ∧ t.linkOpen = s.linkOpen ∧ t.script = s.script ∧ t.turns = s.turns ∧
      t.report = s.report ∧ t.rx = s.rx ∧ (transmits i = false → t.tx = s.tx) ∧ t.block.fb = s.block.fb ∧
      t.block.ackb = s.block.ackb ∧ (i ≠ .validate → t.block.sum = s.block.sum) ∧
      (i ≠ .sync → t.block.scanCnt = s.block.scanCnt) ∧ (i ≠ .drain → t.block.ackCnt = s.block.ackCnt) ∧
      (i ≠ .sync → t.block.fbCnt = s.block.fbCnt) ∧
      (i ≠ .sync → i ≠ .validate → t.block.ckValid = s.block.ckValid ∧ t.block.ckOk = s.block.ckOk) := by
  cases i <;> simp only [Instr.channel] at hc <;> try cases hc
  case validate =>
    rcases validateAct_cases h with ⟨_, rfl⟩ | ⟨_, _, _, _, _, ⟨_, rfl⟩ | ⟨_, rfl⟩⟩ <;> simp
  case collect => simp only [opAct, collectAct] at h; split at h <;> cases h <;> simp
  all_goals
    simp only [opAct, syncAct, drainAct, transmitAct, reservedAct] at h
    cases h; simp [transmits]

/-- An accepted operation depends on the block alone (R10), and changes the block and the tail of TX alone. -/
theorem opAct_local {i : Instr} (hc : i.channel = .op) (h : opAct i s = .next t) :
    ∃ (b : Block) (pushed : List Byte), ∀ s' : State, s'.block = s.block →
      opAct i s' = .next { s' with block := b, tx := s'.tx ++ pushed } := by
  cases i <;> simp only [Instr.channel] at hc <;> try cases hc
  case validate =>
    simp only [opAct, validateAct] at h ⊢
    split at h
    · split at h
      · split at h
        · exact ⟨_, [], fun s' e => by
          simp only [State.mapBlock, List.append_nil, if_true, *]
          rfl⟩
        · exact ⟨_, [], fun s' e => by
          simp only [State.mapBlock, List.append_nil, if_true, if_false, Bool.false_eq_true, *]
          rfl⟩
      · cases h
    · exact ⟨_, [], fun s' e => by
          simp only [State.mapBlock, List.append_nil, if_false, *]
          rfl⟩
  case collect =>
    simp only [opAct, collectAct] at h ⊢
    split at h <;> exact ⟨_, [], fun s' e => by
          simp only [State.mapBlock, List.append_nil, if_true, if_false, *]
          rfl⟩
  all_goals first
    | exact ⟨s.block, cmdFrame _ _ _, fun s' e => by rw [← e]; rfl⟩
    | exact ⟨_, [], fun s' e => by
        simp only [opAct, syncAct, drainAct, reservedAct, State.mapBlock, e, List.append_nil]
        rfl⟩

/-- The same of an operation code presented, accepted or not. -/
theorem exec_op_local {i : Instr} (hc : i.channel = .op) (h : exec i s = .next t) :
    ∃ (b : Block) (pushed : List Byte), ∀ s' : State, s'.block = s.block →
      exec i s' = .next { s' with block := b, tx := s'.tx ++ pushed } := by
  rw [exec_op hc] at h
  rcases accept_cases h with ⟨hs, h⟩ | ⟨hs, rfl⟩
  · obtain ⟨b, pushed, hl⟩ := opAct_local hc h
    refine ⟨b, pushed, fun s' e => ?_⟩
    rw [exec_op hc, accept_of_idle _ (e ▸ hs)]
    exact hl _ (by simp only [State.mapBlock_block, e])
  · refine ⟨t.block, [], fun s' e => ?_⟩
    rw [exec_op hc, accept_of_busy _ (e ▸ hs), List.append_nil, ← e]

/-- What an instruction does has nothing to do with who moves next. -/
theorem exec_withTurns {i : Instr} (turns : List Turn) (h : exec i s = .next t) :
    exec i { s with turns := turns } = .next { t with turns := turns } := by
  rcases exec_cases i s with ⟨hc, e⟩ | ⟨rfl, e⟩ | ⟨rfl, e⟩ | ⟨hc, e⟩ | ⟨hc, e⟩
  · obtain ⟨b, pushed, hl⟩ := exec_op_local hc h
    rw [hl s rfl] at h
    cases h
    exact hl _ rfl
  · cases h; rfl
  · cases h; rfl
  · rw [e] at h; cases h; rw [exec_cmd hc]; unfold State.txCarry; split <;> rfl
  · rw [e] at h; cases h; exact exec_arrival hc _

/-- What a taking of a byte does has nothing to do with who moves next. -/
theorem takeByte_withTurns (turns : List Turn) (h : takeByte s = .next t) :
    takeByte { s with turns := turns } = .next { t with turns := turns } := by
  unfold takeByte at h ⊢
  split at h
  · cases h; simp only [*]
  · split at h
    · split at h <;> cases h; simp only [*]; rfl
    · cases h; simp only [*]; rfl

end Sys2Proof.Machine
end

