-- ==== Sys2Proof/Laws/Memory.lean ====
section
/-! SUPPORT. The laws of the byte arrays: read after write, and that every operation keeps the canonical form. -/

namespace Sys2Proof.Machine

variable (m : Memory) (a : Nat) (v : Byte)

@[simp] theorem Memory.read_nil : Memory.read [] a = none := rfl

@[simp] theorem Memory.read_write_same : (m.write a v).read a = some v := by
  induction m with
  | nil => simp [Memory.write, Memory.read]
  | cons c rest ih =>
    obtain ⟨b, w⟩ := c
    simp only [Memory.write]
    split
    · simp [Memory.read]
    · split
      · simp [Memory.read]
      · rename_i h
        simp [Memory.read, h, ih]

theorem Memory.read_write_other {a' : Nat} (h : a' ≠ a) : (m.write a v).read a' = m.read a' := by
  induction m with
  | nil => simp [Memory.write, Memory.read, h]
  | cons c rest ih =>
    obtain ⟨b, w⟩ := c
    simp only [Memory.write]
    split
    · simp [Memory.read, h]
    · split
      · subst_vars; simp [Memory.read, h]
      · simp [Memory.read, ih]

/-- A write adds no offset but its own. -/
theorem Memory.mem_write {c : Host.Cell} (h : c ∈ m.write a v) : c = (a, v) ∨ c ∈ m := by
  induction m with
  | nil => simpa [Memory.write] using h
  | cons d rest ih =>
    obtain ⟨b, w⟩ := d
    simp only [Memory.write] at h
    split at h
    · simpa using h
    · split at h
      · rcases List.mem_cons.1 h with h | h <;> simp [h]
      · rcases List.mem_cons.1 h with h | h
        · simp [h]
        · rcases ih h with h | h <;> simp [h]

theorem Memory.write_wf (h : m.wf) : (m.write a v).wf := by
  induction m with
  | nil => simp [Memory.write, Memory.wf]
  | cons c rest ih =>
    obtain ⟨b, w⟩ := c
    have hrest : Memory.wf rest := (List.pairwise_cons.1 h).2
    have hlow : ∀ y ∈ rest, b < y.1 := (List.pairwise_cons.1 h).1
    simp only [Memory.write]
    split
    · rename_i hab
      refine List.pairwise_cons.2 ⟨fun y hy => ?_, h⟩
      rcases List.mem_cons.1 hy with rfl | hy
      · exact hab
      · exact Nat.lt_trans hab (hlow y hy)
    · split
      · subst_vars; exact List.pairwise_cons.2 ⟨hlow, hrest⟩
      · rename_i h1 h2
        refine List.pairwise_cons.2 ⟨fun y hy => ?_, ih hrest⟩
        rcases Memory.mem_write rest a v hy with rfl | hy
        · change b < a; omega
        · exact hlow y hy

theorem Memory.write_space {n : Nat} (h : ∀ c ∈ m, c.1 < n) (ha : a < n) : ∀ c ∈ m.write a v, c.1 < n := by
  intro c hc
  rcases Memory.mem_write m a v hc with rfl | hc
  · exact ha
  · exact h c hc

theorem Memory.storeMarker_wf (b : Block) (h : b.fb.wf) : b.storeMarker.fb.wf :=
  Memory.write_wf _ _ _ (Memory.write_wf _ _ _ h)

theorem Memory.storeFrameByte_wf {b b' : Block} (h : b.fb.wf) (hs : b.storeFrameByte v = .ok b') : b'.fb.wf := by
  unfold Block.storeFrameByte at hs
  split at hs
  · cases hs; exact Memory.write_wf _ _ _ h
  · cases hs

theorem Memory.storeAckByte_wf {b b' : Block} (h : b.ackb.wf) (hs : b.storeAckByte v = .ok b') : b'.ackb.wf := by
  unfold Block.storeAckByte at hs
  split at hs
  · cases hs; exact Memory.write_wf _ _ _ h
  · cases hs

/-- The arrays of the block after Reset are in canonical form: nothing is listed. -/
theorem Memory.reset_wf : State.reset.block.fb.wf ∧ State.reset.block.ackb.wf :=
  ⟨List.Pairwise.nil, List.Pairwise.nil⟩

end Sys2Proof.Machine
end

