-- ==== Sys2Proof/Laws/PerInstr.lean ====
section
/-! SUPPORT. R70, instruction by instruction: a well-formed instruction is written in exactly the bytes of its format. -/

namespace Sys2Proof.Laws.FixedLength

/-- The bytes of a format (R70): an operation word in one byte, a strobe none. -/
def bytesOf : Channel → Nat
  | .op => 1
  | .abort => 0
  | .reset => 0
  | .cmd => 7
  | .data => 32
  | .ack => 8

/-- A well-formed instruction's encoding has its format's length. -/
def Statement (i : Instr) : Prop := i.wellFormed = true → (encode i).length = bytesOf i.channel

theorem splitUp_length (vs : List Half) : (splitUp vs).length = 2 * vs.length := by
  induction vs with
  | nil => rfl
  | cons v vs ih => simp [splitUp, ih]; omega

theorem sync : Statement .sync := fun _ => rfl
theorem collect : Statement .collect := fun _ => rfl
theorem validate : Statement .validate := fun _ => rfl
theorem drain : Statement .drain := fun _ => rfl
theorem txSleep : Statement .txSleep := fun _ => rfl
theorem txWake : Statement .txWake := fun _ => rfl
theorem txPassive : Statement .txPassive := fun _ => rfl
theorem txActive : Statement .txActive := fun _ => rfl
theorem txRead : Statement .txRead := fun _ => rfl
theorem reserved0 : Statement .reserved0 := fun _ => rfl
theorem reserved5 : Statement .reserved5 := fun _ => rfl
theorem reserved6 : Statement .reserved6 := fun _ => rfl
theorem reserved7 : Statement .reserved7 := fun _ => rfl
theorem reservedD : Statement .reservedD := fun _ => rfl
theorem reservedE : Statement .reservedE := fun _ => rfl
theorem reservedF : Statement .reservedF := fun _ => rfl
theorem abort : Statement .abort := fun _ => rfl
theorem reset : Statement .reset := fun _ => rfl
theorem cmdSleep : Statement .cmdSleep := fun _ => rfl
theorem cmdWake : Statement .cmdWake := fun _ => rfl
theorem cmdSetModePassive : Statement .cmdSetModePassive := fun _ => rfl
theorem cmdSetModeActive : Statement .cmdSetModeActive := fun _ => rfl
theorem cmdRequestRead : Statement .cmdRequestRead := fun _ => rfl

theorem dataFrame (lenH lenL : Byte) (chans : List Half) (rsvH rsvL ckH ckL : Byte) :
    Statement (.dataFrame lenH lenL chans rsvH rsvL ckH ckL) := by
  intro h
  have hc : chans.length = 12 := by simpa [Instr.wellFormed, Config.nChannels] using h
  simp [encode, Instr.channel, bytesOf, splitUp_length, hc]

theorem ack (bytes : List Byte) : Statement (.ack bytes) := by
  intro h
  simpa [Instr.wellFormed, Config.ackLen, encode, Instr.channel, bytesOf] using h

end Sys2Proof.Laws.FixedLength
end

