-- ==== Sys2Proof/Laws/Receive.lean ====
section
/-! SUPPORT. The event RxByte: everything it can do, said once, and the counts and sums it rests on. -/

namespace Sys2Proof.Machine

/-- `SCAN_CNT` after a byte, as a number (R15): it saturates at `0xFFFF`. -/
theorem Block.countByte_toNat (b : Block) : b.countByte.scanCnt.toNat = min (b.scanCnt.toNat + 1) 0xFFFF := by
  have hlt := b.scanCnt.isLt
  simp only [Block.countByte_scanCnt]
  split
  · rename_i h; rw [h]; rfl
  · rename_i h
    have hne : b.scanCnt.toNat ≠ 0xFFFF := fun e => h (BitVec.eq_of_toNat_eq e)
    rw [BitVec.toNat_add, show BitVec.toNat (1 : Half) = 1 from rfl]
    omega

/-- Everything RxByte can do to the block (R101 to R105, R108, R113). -/
theorem Block.rxByte_cases {bound : ScanBound} {v : Byte} {b b' : Block} (h : b.rxByte bound v = .ok b') :
    (b.st = .idle ∧ b' = b) ∨
      ((b.st = .hunt ∨ (b.st = .got42 ∧ v ≠ Config.marker1)) ∧
        b' = (b.countByte.goto (if v = Config.marker0 then .got42 else .hunt)).checkBound bound) ∨
      (b.st = .got42 ∧ v = Config.marker1 ∧ b' = b.countByte.storeMarker.goto .idle) ∨
      (b.st = .collect ∧ b.fbCnt.toNat < 32 ∧
        b' = { b with
          fb := b.fb.write b.fbCnt.toNat v, fbCnt := b.fbCnt + 1
          st := if b.fbCnt.toNat = 31 then .idle else .collect }) ∨
      (b.st = .drain ∧ b.ackCnt.toNat < 8 ∧
        b' = { b with
          ackb := b.ackb.write b.ackCnt.toNat v, ackCnt := b.ackCnt + 1
          st := if b.ackCnt.toNat = 7 then .idle else .drain }) := by
  unfold Block.rxByte at h
  split at h
  · rename_i hs; cases h; exact .inl ⟨hs, rfl⟩
  · rename_i hs; cases h; exact .inr (.inl ⟨.inl hs, rfl⟩)
  · rename_i hs
    cases h
    unfold Block.rxGot42
    split
    · rename_i hv; exact .inr (.inr (.inl ⟨hs, hv, rfl⟩))
    · rename_i hv; exact .inr (.inl ⟨.inr ⟨hs, hv⟩, rfl⟩)
  · rename_i hs
    unfold Block.rxCollect at h
    split at h
    · cases h
    · rename_i b2 h2
      cases h
      obtain ⟨hlt, rfl⟩ := Block.storeFrameByte_cases h2
      have e : (b.fbCnt + 1).toNat = b.fbCnt.toNat + 1 := by
        rw [BitVec.toNat_add, show BitVec.toNat (1 : BitVec 6) = 1 from rfl]; omega
      refine .inr (.inr (.inr (.inl ⟨hs, hlt, ?_⟩)))
      simp only [e, Config.frameLen, Nat.reduceEqDiff, Block.goto]
      split <;> simp [hs]
  · rename_i hs
    unfold Block.rxDrain at h
    split at h
    · cases h
    · rename_i b2 h2
      cases h
      obtain ⟨hlt, rfl⟩ := Block.storeAckByte_cases h2
      have e : (b.ackCnt + 1).toNat = b.ackCnt.toNat + 1 := by
        rw [BitVec.toNat_add, show BitVec.toNat (1 : BitVec 4) = 1 from rfl]; omega
      refine .inr (.inr (.inr (.inr ⟨hs, hlt, ?_⟩)))
      simp only [e, Config.ackLen, Nat.reduceEqDiff, Block.goto]
      split <;> simp [hs]

/-- The 16-bit sum of few enough bytes is their exact sum. -/
theorem sumBytes_toNat (bs : List Byte) (h : bs.length ≤ 256) :
    (sumBytes bs).toNat = natSum bs ∧ natSum bs ≤ 255 * bs.length := by
  induction bs with
  | nil => exact ⟨rfl, Nat.le_refl _⟩
  | cons v vs ih =>
    rw [List.length_cons] at h
    obtain ⟨h1, h2⟩ := ih (by omega)
    have hv := v.isLt
    have e : natSum (v :: vs) = v.toNat + natSum vs := rfl
    rw [e, List.length_cons]
    refine ⟨?_, by omega⟩
    rw [sumBytes, BitVec.toNat_add, h1, BitVec.toNat_setWidth]
    omega

/-- As many bytes are read as asked for. -/
theorem Block.fbBytes_length {b : Block} {a n : Nat} {bs : List Byte} (h : b.fbBytes a n = some bs) :
    bs.length = n := by
  induction n generalizing a bs with
  | zero => simp only [Block.fbBytes, Option.some.injEq] at h; simp [← h]
  | succ n ih =>
    simp only [Block.fbBytes] at h
    split at h
    · rename_i v vs _ h2; cases h; simp [ih h2]
    · cases h

/-- Reading a run of FB depends on the cells below `fb_cnt` alone. -/
theorem Block.fbBytes_congr {b b' : Block} {a n : Nat} (h : ∀ i, a ≤ i → i < a + n → b'.fbByte i = b.fbByte i) :
    b'.fbBytes a n = b.fbBytes a n := by
  induction n generalizing a with
  | zero => rfl
  | succ n ih =>
    simp only [Block.fbBytes]
    rw [h a (Nat.le_refl _) (by omega), ih fun i h1 h2 => h i (by omega) (by omega)]

/-- A run of FB whose cells are all valid and written can be read. -/
theorem Block.fbBytes_isSome {b : Block} {a n : Nat} (h : ∀ i, a ≤ i → i < a + n → (b.fbByte i).isSome = true) :
    ∃ bs, b.fbBytes a n = some bs := by
  induction n generalizing a with
  | zero => exact ⟨[], rfl⟩
  | succ n ih =>
    obtain ⟨v, hv⟩ := Option.isSome_iff_exists.1 (h a (Nat.le_refl _) (by omega))
    obtain ⟨vs, hvs⟩ := ih (a := a + 1) fun i h1 h2 => h i (by omega) (by omega)
    exact ⟨v :: vs, by simp [Block.fbBytes, hv, hvs]⟩

/-- What a read of one cell is after a write of another or the same. -/
theorem Memory.read_write (m : Memory) (a a' : Nat) (v : Byte) :
    (m.write a v).read a' = if a' = a then some v else m.read a' := by
  split
  · rename_i h; rw [h, Memory.read_write_same]
  · rename_i h; exact Memory.read_write_other m a v h

end Sys2Proof.Machine
end

