-- ==== Sys2Proof/Laws/Run.lean ====
section
/-! SUPPORT. Runs: how they join, what one step is for each kind of turn and line, and that a taking of bytes to the end of
an operation is a run. -/

namespace Sys2Proof.Machine

variable {s t : State}

theorem run_one : Sys2Proof.core.run 1 s = step s := by
  have h : Sys2Proof.core.step s = step s := rfl
  simp only [Host.Core.run, h]
  cases step s <;> rfl

/-- A run may be cut after any number of steps. -/
theorem run_add {n : Nat} (h : Sys2Proof.core.run n s = .next t) (k : Nat) :
    Sys2Proof.core.run (n + k) s = Sys2Proof.core.run k t := by
  induction n generalizing s with
  | zero => cases h; rw [Nat.zero_add]
  | succ n ih =>
    rw [Nat.add_right_comm]
    simp only [Host.Core.run] at h ⊢
    split at h
    · exact ih h
    · cases h
    · cases h

theorem run_step_add (h : step s = .next t) (k : Nat) : Sys2Proof.core.run (1 + k) s = Sys2Proof.core.run k t :=
  run_add (run_one.trans h) k

/-- With a turn listed, the step is that turn. -/
theorem step_turn {turn : Turn} {rest : List Turn} (h : s.turns = turn :: rest) :
    step s = runTurn turn { s with turns := rest } := by
  simp only [step, advance, h]

/-- With none listed, a byte that can be taken is taken. -/
theorem step_byte (ht : s.turns = []) (h : s.rxEnabled = true) : step s = takeByte s := by
  simp only [step, advance, ht, h, if_true]

/-- With none listed and no byte to take, the host moves. -/
theorem step_host (ht : s.turns = []) (h : s.rxEnabled = false) : step s = hostMove s := by
  simp only [step, advance, ht, h, Bool.false_eq_true, if_false]

theorem rxReady_of_busy (h : s.block.st ≠ .idle) : s.block.rxReady = true := by
  unfold Block.rxReady; split <;> simp_all

theorem rxEnabled_of_idle (h : s.block.st = .idle) : s.rxEnabled = false := by
  simp [State.rxEnabled, Block.rxReady, h]

/-- An operation code in its byte runs as the instruction it stands for (R83, R84). -/
theorem runCode_eq (code : BitVec 4) (s : State) : runCode code s = exec (decodeOp code) s := by
  have hlt : (code.setWidth 8).toNat < 16 := by rw [BitVec.toNat_setWidth]; omega
  have hback : (code.setWidth 8).setWidth 4 = code := by
    apply BitVec.eq_of_toNat_eq; rw [BitVec.toNat_setWidth, BitVec.toNat_setWidth]; omega
  simp only [runCode, runWord, decode, decodeOpBytes, if_pos hlt, hback]

/-- The turns of a period in which Reset was not sampled (R207). -/
theorem Sampled.order_of_no_reset {p : Sampled} (h : p.reset = false) :
    p.order = (if p.abort then [.present .abort []] else []) ++ ((if p.rx then [.take] else []) ++
      (p.op.map fun code => Turn.present .op [code.setWidth 8]).toList) := by
  cases hop : p.op <;> simp [Sampled.order, h, hop]

theorem takeByte_turns (h : takeByte s = .next t) : t.turns = s.turns := by
  rcases takeByte_cases h with ⟨_, rfl⟩ | ⟨_, _, _, _, _, _, rfl⟩ <;> rfl

theorem exec_turns {i : Instr} (h : exec i s = .next t) : t.turns = s.turns := by
  have h2 : exec i s = .next { t with turns := s.turns } := exec_withTurns s.turns h
  rw [h] at h2
  have e : t = { t with turns := s.turns } := Host.Outcome.next.inj h2
  have e' := congrArg State.turns e
  exact e'

/-- Taking bytes while the block is busy is a run of as many steps. -/
theorem run_of_takeN {n : Nat} (ht : s.turns = []) (hl : n ≤ s.rx.length) (h : takeN n s = some t)
    (hbusy : ∀ k < n, ∀ u, takeN k s = some u → u.block.st ≠ .idle) : Sys2Proof.core.run n s = .next t := by
  induction n generalizing s with
  | zero => cases h; rfl
  | succ n ih =>
    have hready := rxReady_of_busy (hbusy 0 (Nat.succ_pos n) s rfl)
    cases hr : s.rx with
    | nil => simp [hr] at hl
    | cons v rest =>
      simp only [takeN] at h
      split at h
      · rename_i u hu
        have hlen : n ≤ u.rx.length := by
          rcases takeByte_cases hu with ⟨h1 | h1, _⟩ | ⟨_, _, _, hr2, _, _, rfl⟩
          · simp [hr] at h1
          · simp [hready] at h1
          · rw [hr2] at hl; simpa using hl
        have hstep : step s = .next u := (step_byte ht (by simp [State.rxEnabled, hready, hr])).trans hu
        rw [Nat.add_comm, run_step_add hstep]
        refine ih ((takeByte_turns hu).trans ht) hlen h fun k hk w hw => ?_
        exact hbusy (k + 1) (Nat.succ_lt_succ hk) w (by simp only [takeN, hu]; exact hw)
      · cases h
      · cases h

theorem run_of_endsAfter {n : Nat} (ht : s.turns = []) (hl : n ≤ s.rx.length) (h : EndsAfter n s t) :
    Sys2Proof.core.run n s = .next t := run_of_takeN ht hl h.1 h.2.2

/-- With the block idle, the host's code is run (R86). -/
theorem step_issue {code : BitVec 4} {rest : List Line} (ht : s.turns = []) (hs : s.block.st = .idle)
    (h : s.script = .issue code :: rest) : step s = exec (decodeOp code) { s with script := rest } := by
  rw [step_host ht (rxEnabled_of_idle hs)]
  simp only [hostMove, h, runLine, Block.opReady, hs]
  exact runCode_eq code _

end Sys2Proof.Machine
end

