-- ==== Sys2Proof/Tests/Slice0.lean ====
section
/-! SUPPORT. Small tests whose expected values stand in spec/95_test_vectors.md or are counted by hand from a rule, and
one witness (`witness_…`) for each statement that has hypotheses. -/

namespace Sys2Proof.Tests

open Sys2Proof Sys2Proof.Machine

/-! ### States to start from -/

/-- The machine after Reset with the bound and RX given. -/
def fresh (bound : ScanBound) (rx : List Byte) : State := State.resetWith bound rx

/-- The same in the sequencer state `st`. -/
def inSt (st : St) (rx : List Byte) : State :=
  { fresh .unbounded rx with block := { Block.reset with st := st } }

/-- The bytes of an array as (offset, byte) pairs from offset `a` on. -/
def cells : Nat → List Byte → Memory
  | _, [] => []
  | a, v :: vs => (a, v) :: cells (a + 1) vs

/-- V1 of spec/95: a frame whose channels are 1 to 12; its sum is `0x00F9`. -/
def v1 : List Byte :=
  [0x42, 0x4D, 0x00, 0x1C, 0x00, 0x01, 0x00, 0x02, 0x00, 0x03, 0x00, 0x04, 0x00, 0x05, 0x00, 0x06,
    0x00, 0x07, 0x00, 0x08, 0x00, 0x09, 0x00, 0x0A, 0x00, 0x0B, 0x00, 0x0C, 0x00, 0x00, 0x00, 0xF9]

/-- V-C7 of spec/95: V1 with offset 31 one too high. -/
def v1Bad : List Byte := v1.take 31 ++ [0xFA]

/-- A whole frame stands in FB, not yet validated. -/
def holding (frame : List Byte) : State :=
  { fresh .unbounded [] with block := { Block.reset with fb := cells 0 frame, fbCnt := 32 } }

/-- V1 validated. -/
def validated : State :=
  { fresh .unbounded [] with
    block := { Block.reset with
      fb := cells 0 v1, fbCnt := 32, sum := 0x00F9, ckValid := true, ckOk := true } }

/-- COLLECT in progress with `n` bytes of V1 in FB. -/
def collecting (n : BitVec 6) (rx : List Byte) : State :=
  { fresh .unbounded rx with
    block := { Block.reset with st := .collect, fb := cells 0 (v1.take n.toNat), fbCnt := n } }

/-- DRAIN in progress with `n` bytes taken. -/
def draining (n : BitVec 4) (rx : List Byte) : State :=
  { fresh .unbounded rx with
    block := { Block.reset with st := .drain, ackb := cells 0 (v1.take n.toNat), ackCnt := n } }

/-- The block after an outcome, if there is a next state. -/
def blockOf : Host.Outcome State Fault Refusal → Option Block
  | .next t => some t.block
  | .fault _ => none
  | .refused _ => none

/-- TX after an outcome, if there is a next state. -/
def txOf : Host.Outcome State Fault Refusal → Option (List Byte)
  | .next t => some t.tx
  | .fault _ => none
  | .refused _ => none

/-- RX after an outcome, if there is a next state. -/
def rxOf : Host.Outcome State Fault Refusal → Option (List Byte)
  | .next t => some t.rx
  | .fault _ => none
  | .refused _ => none

/-- STATUS after an outcome, if there is a next state. -/
def statusOf (o : Host.Outcome State Fault Refusal) : Option Half := (blockOf o).map Block.status

/-! ### Well-formedness (R70): twelve channels, eight bytes -/

theorem test_wf_data_eleven_refused :
    (Instr.dataFrame 0 0x1C [1, 2, 3, 4, 5, 6, 7, 8, 9, 10, 11] 0 0 0 0).wellFormed = false := by decide

theorem test_wf_data_thirteen_refused :
    (Instr.dataFrame 0 0x1C [1, 2, 3, 4, 5, 6, 7, 8, 9, 10, 11, 12, 13] 0 0 0 0).wellFormed = false := by decide

theorem test_wf_data_twelve_admitted :
    (Instr.dataFrame 0 0x1C [1, 2, 3, 4, 5, 6, 7, 8, 9, 10, 11, 12] 0 0 0 0xF9).wellFormed = true := by decide

theorem test_wf_ack_seven_refused : (Instr.ack [1, 2, 3, 4, 5, 6, 7]).wellFormed = false := by decide

theorem test_wf_ack_nine_refused : (Instr.ack [1, 2, 3, 4, 5, 6, 7, 8, 9]).wellFormed = false := by decide

theorem test_wf_ack_eight_admitted : (Instr.ack [1, 2, 3, 4, 5, 6, 7, 8]).wellFormed = true := by decide

/-! ### Decoding, each word written out from the spec -/

/-- R84: the nine operations, bit by bit. -/
theorem test_decode_operations :
    [0b0001, 0b0010, 0b0011, 0b0100, 0b1000, 0b1001, 0b1010, 0b1011, 0b1100].map (decodeTableWord 4) =
      [some .sync, some .collect, some .validate, some .drain, some .txSleep, some .txWake, some .txPassive,
        some .txActive, some .txRead] := by decide

/-- R85: the seven reserved codes, bit by bit. -/
theorem test_decode_reserved :
    [0b0000, 0b0101, 0b0110, 0b0111, 0b1101, 0b1110, 0b1111].map (decodeTableWord 4) =
      [some .reserved0, some .reserved5, some .reserved6, some .reserved7, some .reservedD, some .reservedE,
        some .reservedF] := by decide

/-- R84: a strobe is its wire; there are no bits. -/
theorem test_decode_strobes :
    decode .abort [] = .ok .abort ∧ decode .reset [] = .ok .reset ∧ decodeTableWord 0 0 = none := by decide

/-- R78: the five command frames as their bytes. -/
theorem test_decode_commands :
    decode .cmd [0x42, 0x4D, 0xE4, 0x00, 0x00, 0x01, 0x73] = .ok .cmdSleep ∧
    decode .cmd [0x42, 0x4D, 0xE4, 0x00, 0x01, 0x01, 0x74] = .ok .cmdWake ∧
    decode .cmd [0x42, 0x4D, 0xE1, 0x00, 0x00, 0x01, 0x70] = .ok .cmdSetModePassive ∧
    decode .cmd [0x42, 0x4D, 0xE1, 0x00, 0x01, 0x01, 0x71] = .ok .cmdSetModeActive ∧
    decode .cmd [0x42, 0x4D, 0xE2, 0x00, 0x00, 0x01, 0x71] = .ok .cmdRequestRead := by decide

/-- R71: V1 as its bytes; every channel big-endian, the compared byte last. -/
theorem test_decode_data :
    decode .data v1 = .ok (.dataFrame 0x00 0x1C [1, 2, 3, 4, 5, 6, 7, 8, 9, 10, 11, 12] 0x00 0x00 0x00 0xF9) := by
  decide

/-- R79: the eight bytes in order of arrival. -/
theorem test_decode_ack :
    decode .ack [0x42, 0x4D, 0x00, 0x04, 0xE1, 0x00, 0x01, 0x74] =
      .ok (.ack [0x42, 0x4D, 0x00, 0x04, 0xE1, 0x00, 0x01, 0x74]) := by decide

/-- R83, R82(c), R71: what is refused, by name. -/
theorem test_decode_refusals :
    decode .op [0x11] = .error .notFourBits ∧
    decode .cmd [0x42, 0x4D, 0xE3, 0x00, 0x00, 0x01, 0x72] = .error .unknownCommand ∧
    decode .data (0x43 :: v1.tail) = .error .noMarker ∧
    decode .ack [1, 2, 3] = .error .wrongLength := by decide

/-! ### Single steps -/

/-- V-S10: SYNC waits in HUNT, `STATUS = 0x0011`. -/
theorem test_sync_status : statusOf (exec .sync (fresh .unbounded [])) = some 0x0011 := by decide

/-- V-D10: SYNC takes the verdict away at once. -/
theorem test_sync_drops_verdict :
    (blockOf (exec .sync validated)).map (fun b => (b.chValid 0, b.sum)) = some (false, 0x00F9) := by decide

/-- V-X7: COLLECT without a marker is SEQ. -/
theorem test_collect_seq : statusOf (exec .collect (fresh .unbounded [])) = some 0x0300 := by decide

/-- V-C1: V1 gives `SUM = 0x00F9` and a good verdict. -/
theorem test_validate_good :
    (blockOf (exec .validate (holding v1))).map (fun b => (b.sum, b.status)) = some (0x00F9, 0x008E) := by decide

/-- V-C7: off by one is CHECKSUM. -/
theorem test_validate_bad :
    (blockOf (exec .validate (holding v1Bad))).map (fun b => (b.sum, b.status)) = some (0x00F9, 0x010E) := by decide

/-- R112, R23: DRAIN waits with `ST = 4`. -/
theorem test_drain_status : statusOf (exec .drain (draining 3 [])) = statusOf (.next (draining 3 [])) ∧
    statusOf (exec .drain (fresh .unbounded [])) = some 0x0041 := by decide

/-- V-E1. -/
theorem test_txSleep :
    txOf (exec .txSleep (fresh .unbounded [])) = some [0x42, 0x4D, 0xE4, 0x00, 0x00, 0x01, 0x73] := by decide

/-- V-E2. -/
theorem test_txWake :
    txOf (exec .txWake (fresh .unbounded [])) = some [0x42, 0x4D, 0xE4, 0x00, 0x01, 0x01, 0x74] := by decide

/-- V-E3. -/
theorem test_txPassive :
    txOf (exec .txPassive (fresh .unbounded [])) = some [0x42, 0x4D, 0xE1, 0x00, 0x00, 0x01, 0x70] := by decide

/-- V-E4. -/
theorem test_txActive :
    txOf (exec .txActive (fresh .unbounded [])) = some [0x42, 0x4D, 0xE1, 0x00, 0x01, 0x01, 0x71] := by decide

/-- V-E5. -/
theorem test_txRead :
    txOf (exec .txRead (fresh .unbounded [])) = some [0x42, 0x4D, 0xE2, 0x00, 0x00, 0x01, 0x71] := by decide

/-- V-E7: the greatest sum. -/
theorem test_cmdFrame_greatest : cmdFrame 0xFF 0xFF 0xFF = [0x42, 0x4D, 0xFF, 0xFF, 0xFF, 0x03, 0x8C] := by decide

/-- V-X6: a reserved code is SEQ, `STATUS = 0x0300`. -/
theorem test_reserved :
    [Instr.reserved0, .reserved5, .reserved6, .reserved7, .reservedD, .reservedE, .reservedF].map
      (fun i => statusOf (exec i (fresh .unbounded []))) = List.replicate 7 (some 0x0300) := by decide

/-- V-X3: Abort of COLLECT drops the partial frame. -/
theorem test_abort_collect : statusOf (exec .abort (collecting 12 [])) = some 0x0200 := by decide

/-- V-X4: Abort of DRAIN keeps `ack_cnt`. -/
theorem test_abort_drain : statusOf (exec .abort (draining 3 [])) = some 0x0E00 := by decide

/-- V-X10, V-X11: Reset leaves `STATUS = 0` and RX as it was. -/
theorem test_reset :
    statusOf (exec .reset validated) = some 0x0000 ∧ rxOf (exec .reset (collecting 31 [0xF9])) = some [0xF9] := by
  decide

/-- R45: a command frame that is the oldest of TX leaves it; one behind another stays. -/
theorem test_command_leaves :
    txOf (exec .cmdSleep { fresh .unbounded [] with tx := sleepFrame ++ wakeFrame }) = some wakeFrame ∧
    txOf (exec .cmdWake { fresh .unbounded [] with tx := sleepFrame ++ wakeFrame }) = some (sleepFrame ++ wakeFrame) := by
  decide

/-- R43, R44: V1 arrives behind what RX holds. -/
theorem test_data_arrives :
    rxOf (exec (.dataFrame 0x00 0x1C [1, 2, 3, 4, 5, 6, 7, 8, 9, 10, 11, 12] 0x00 0x00 0x00 0xF9)
      (fresh .unbounded [0xFF])) = some (0xFF :: v1) := by decide

/-- R44, R79: an acknowledgment arrives in order. -/
theorem test_ack_arrives :
    rxOf (exec (.ack [1, 2, 3, 4, 5, 6, 7, 8]) (fresh .unbounded [9])) = some [9, 1, 2, 3, 4, 5, 6, 7, 8] := by decide

/-- V-S8: after `42` the scan waits in GOT42. -/
theorem test_rx_got42 : statusOf (takeByte (inSt .hunt [0x42])) = some 0x0021 := by decide

/-- V-S11: the byte that reaches the bound completes the marker, and success comes first. -/
theorem test_rx_marker_before_bound :
    statusOf (takeByte { inSt .got42 [0x4D, 0x01] with
      syncMax := .atMost 2, block := { Block.reset with st := .got42, scanCnt := 3 } }) = some 0x0002 := by decide

/-- V-S12: the bound is reached in GOT42; the `42` is lost. -/
theorem test_rx_bound :
    statusOf (takeByte { inSt .hunt [0x42, 0x4D, 0x01] with
      syncMax := .atMost 0, block := { Block.reset with st := .hunt, scanCnt := 1 } }) = some 0x0200 := by decide

/-- V-S14: the count of a scan saturates. -/
theorem test_rx_saturates :
    (blockOf (takeByte { inSt .hunt [0x00] with
      block := { Block.reset with st := .hunt, scanCnt := 0xFFFF } })).map (fun b => (b.scanCnt, b.st)) =
      some (0xFFFF, .hunt) := by decide

/-- R108: the byte at offset 31 ends COLLECT, `STATUS = 0x0006`. -/
theorem test_rx_collect_ends : statusOf (takeByte (collecting 31 [0xF9])) = some 0x0006 := by decide

/-- R113, P2: the eighth byte ends DRAIN, `STATUS = 0x2000`. -/
theorem test_rx_drain_ends : statusOf (takeByte (draining 7 [0x74])) = some 0x2000 := by decide

/-- V-D1, V-D3, V-D6: channels are big-endian and unsigned; there are twelve. -/
theorem test_channel_port :
    ({ validated.block with fb := cells 0 (v1.take 4 ++ [0x80, 0x00] ++ v1.drop 6) }).chData 0 = .ok 32768 ∧
    validated.block.chData 11 = .ok 12 ∧
    validated.block.chData 12 = .error .channelNotValid := by decide

/-- U9: an invalid byte of FB has no value. -/
theorem test_fb_port :
    (match (collecting 12 []).block.portRead (.fb 11) with | .ok v => some v | .error _ => none) = some 0x04 ∧
    (match (collecting 12 []).block.portRead (.fb 12) with | .ok _ => true | .error _ => false) = false := by decide

/-- The machine after Reset is State.reset, and its arrays are in canonical form. -/
theorem test_reset_memory : Memory.wf State.reset.block.fb ∧ Memory.wf State.reset.block.ackb := by decide

/-! ### Witnesses: for each statement with hypotheses, a state and operands that meet them together -/

theorem witness_DecodeOfEncode :
    (Instr.dataFrame 0 0x1C [1, 2, 3, 4, 5, 6, 7, 8, 9, 10, 11, 12] 0 0 0 0xF9).wellFormed = true ∧
    (Instr.ack [1, 2, 3, 4, 5, 6, 7, 8]).wellFormed = true ∧ Instr.sync.wellFormed = true := by decide

theorem witness_EncodeOfDecode :
    decode .op [0x0C] = .ok .txRead ∧ decode .cmd sleepFrame = .ok .cmdSleep ∧ decode .abort [] = .ok .abort := by
  decide

theorem witness_DecoderRejects :
    (16 ≤ (0x10 : Byte).toNat) ∧
    ([0x42, 0x4D, 0xE3, 0x00, 0x00, 0x01, 0x72] : List Byte).length = 7 ∧
    [0x42, 0x4D, 0xE3, 0x00, 0x00, 0x01, 0x72] ∉ commandFrames ∧
    (0x43 :: v1.tail).length = 32 ∧ (0x43 :: v1.tail).take 2 ≠ [0x42, 0x4D] := by decide

theorem witness_StepRunsDecodedInstruction_present :
    ({ fresh .unbounded [] with turns := [.present .op [0x01]] } : State).turns = .present .op [0x01] :: [] ∧
    decode .op [0x01] = .ok .sync := by decide

theorem witness_StepRunsDecodedInstruction_carry :
    ({ fresh .unbounded [] with turns := [.carry], tx := sleepFrame } : State).turns = .carry :: [] ∧
    7 ≤ ({ fresh .unbounded [] with turns := [.carry], tx := sleepFrame } : State).tx.length ∧
    decode .cmd (({ fresh .unbounded [] with turns := [.carry], tx := sleepFrame } : State).tx.take 7) =
      .ok .cmdSleep := by decide

theorem witness_StepRunsDecodedInstruction_script :
    ({ fresh .unbounded [] with script := [.issue 0x1] } : State).turns = [] ∧
    ({ fresh .unbounded [] with script := [.issue 0x1] } : State).block.st = .idle ∧
    ({ fresh .unbounded [] with script := [.issue 0x1] } : State).script = .issue 0x1 :: [] := by decide

theorem witness_FetchedTableWordRuns :
    decodeTableWord 4 0x1 = some .sync ∧ decodeTableWord 56 0x424DE200000171 = some .cmdRequestRead ∧
    decodeTableWord 64 0x0102030405060708 = some (.ack [1, 2, 3, 4, 5, 6, 7, 8]) := by decide

/-- For SyncAccepted, CollectAccepted (its refusal), DrainAccepted, ValidateGivesVerdict (its refusal),
TransmitPushesItsFrame, ReservedCodesGiveSeq: the machine after Reset. -/
theorem witness_idle :
    (fresh .unbounded []).block.st = .idle ∧ (fresh .unbounded []).block.fbCnt ≠ 2 ∧
    (fresh .unbounded []).block.fbCnt ≠ 32 := by decide

/-- A marker stands in FB and the block is idle. -/
def synced (rx : List Byte) : State :=
  { fresh .unbounded rx with block := { Block.reset with fb := [(0, 0x42), (1, 0x4D)], fbCnt := 2, scanCnt := 2 } }

theorem witness_CollectAccepted : (synced []).block.st = .idle ∧ (synced []).block.fbCnt = 2 := by decide

theorem witness_ValidateGivesVerdict :
    (holding v1).block.st = .idle ∧ (holding v1).block.fbCnt = 32 ∧ v1.length = 32 ∧
    ∀ i < 32, (holding v1).block.fb.read i = v1[i]? := by decide

theorem witness_BusyBlockTakesNoCode :
    Instr.validate.channel = .op ∧ (inSt .hunt []).block.st ≠ .idle ∧ (draining 3 []).block.st ≠ .idle := by decide

theorem witness_AbortEndsReceiving :
    (inSt .hunt []).block.st = .hunt ∧ (inSt .got42 []).block.st = .got42 ∧
    (collecting 12 []).block.st = .collect ∧ (draining 3 []).block.st = .drain := by decide

theorem witness_AbortWhileIdleDoesNothing :
    (fresh .unbounded []).block.st = .idle ∧ transmits .txRead = true ∧
    ∃ t, exec .txRead (fresh .unbounded []) = .next t := ⟨by decide, by decide, _, rfl⟩

theorem witness_CommandFramesLeaveTx :
    ({ fresh .unbounded [] with tx := sleepFrame ++ wakeFrame } : State).tx =
      [0x42, 0x4D, 0xE4, 0x00, 0x00, 0x01, 0x73] ++ wakeFrame ∧
    Instr.cmdWake.channel = .cmd ∧
    ¬ encode .cmdWake <+: ({ fresh .unbounded [] with tx := sleepFrame ++ wakeFrame } : State).tx := by decide

theorem witness_RxByteInHunt :
    (inSt .hunt [0x42, 0x00]).rx = 0x42 :: [0x00] ∧ (inSt .hunt [0x42, 0x00]).block.st = .hunt := by decide

theorem witness_RxByteInGot42 :
    (inSt .got42 [0x42]).rx = 0x42 :: [] ∧ (inSt .got42 [0x42]).block.st = .got42 ∧ (0x42 : Byte) ≠ 0x4D := by decide

theorem witness_MarkerCompletes :
    (inSt .got42 [0x4D, 0x01]).rx = 0x4D :: [0x01] ∧ (inSt .got42 [0x4D, 0x01]).block.st = .got42 := by decide

theorem witness_RxByteInCollect_last :
    (collecting 31 [0xF9]).rx = 0xF9 :: [] ∧ (collecting 31 [0xF9]).block.st = .collect ∧
    (collecting 31 [0xF9]).block.fbCnt.toNat ≤ 31 := by decide

theorem witness_RxByteInDrain_last :
    (draining 7 [0x74]).rx = 0x74 :: [] ∧ (draining 7 [0x74]).block.st = .drain ∧
    (draining 7 [0x74]).block.ackCnt.toNat ≤ 7 := by decide

theorem witness_NoByteTakenWithoutRxReady :
    (fresh .unbounded [0x42]).block.st = .idle ∧ (inSt .hunt []).rx = [] := by decide

/-- A scan that takes V-S1's two bytes: the state after SYNC, and after the marker. -/
def huntingV1 : State := { inSt .hunt v1 with block := { Block.reset with st := .hunt } }

theorem witness_SyncStopsAtFirstMarker :
    (fresh .unbounded v1).block.st = .idle ∧ exec .sync (fresh .unbounded v1) = .next huntingV1 ∧
    ∃ t, EndsAfter 2 huntingV1 t ∧ t.block.err = .none := by
  refine ⟨rfl, rfl, _, ⟨rfl, rfl, fun k hk u hu => ?_⟩, rfl⟩
  match k, hk with
  | 0, _ => cases hu; decide
  | 1, _ => cases hu; decide

theorem witness_SyncFindsMarkerWithinBound_unbounded :
    (fresh .unbounded (0xFF :: v1)).block.st = .idle ∧ 3 ≤ (fresh .unbounded (0xFF :: v1)).rx.length ∧
    EndsAtFirstMarker ((fresh .unbounded (0xFF :: v1)).rx.take 3) ∧ (fresh .unbounded (0xFF :: v1)).syncMax.toNat = 0 := by
  refine ⟨by decide, by decide, ⟨by decide, by decide⟩, by decide⟩

/-- V-S11: the marker is complete with the byte that reaches the bound. -/
theorem witness_SyncFindsMarkerWithinBound_at_bound :
    (fresh (.atMost 2) [0x00, 0x00, 0x42, 0x4D, 0x01]).syncMax.toNat = 4 ∧
    EndsAtFirstMarker ((fresh (.atMost 2) [0x00, 0x00, 0x42, 0x4D, 0x01]).rx.take 4) ∧
    4 ≤ (fresh (.atMost 2) [0x00, 0x00, 0x42, 0x4D, 0x01]).syncMax.toNat := by
  refine ⟨by decide, ⟨by decide, by decide⟩, by decide⟩

/-- V-S12: the bound falls inside the marker. -/
theorem witness_ScanBoundGivesTimeout :
    (fresh (.atMost 0) [0x00, 0x42, 0x4D, 0x01]).block.st = .idle ∧
    (fresh (.atMost 0) [0x00, 0x42, 0x4D, 0x01]).syncMax.toNat ≠ 0 ∧
    (fresh (.atMost 0) [0x00, 0x42, 0x4D, 0x01]).syncMax.toNat ≤ 4 ∧
    ¬ [0x42, 0x4D] <:+: ([0x00, 0x42, 0x4D, 0x01] : List Byte).take 2 := by decide

theorem witness_CollectTakesThirtyBytes :
    (synced (v1.drop 2)).block.st = .idle ∧ (synced (v1.drop 2)).block.fbCnt = 2 ∧
    (∃ t, exec .collect (synced (v1.drop 2)) = .next t) ∧ 30 ≤ (synced (v1.drop 2)).rx.length :=
  ⟨by decide, by decide, ⟨_, rfl⟩, by decide⟩

/-- The state of witness_CollectTakesThirtyBytes keeps the invariant. -/
theorem witness_CollectTakesThirtyBytes_inv : (synced (v1.drop 2)).Inv := by
  refine ⟨?_, ⟨[], by decide, rfl⟩⟩
  constructor
  case verdict => exact fun h => absurd h (by decide)
  all_goals decide

theorem witness_DrainTakesEightBytes :
    (fresh .unbounded (v1.take 8)).block.st = .idle ∧ (∃ t, exec .drain (fresh .unbounded (v1.take 8)) = .next t) ∧
    8 ≤ (fresh .unbounded (v1.take 8)).rx.length := ⟨by decide, ⟨_, rfl⟩, by decide⟩

theorem witness_FrameSumIsExact :
    (holding v1).block.fbBytes 0 30 = some (v1.take 30) ∧ (v1.take 30).take 2 = [0x42, 0x4D] := by decide

/-- For OffsetThirtyIsIgnored, ValidateIsRepeatable and ChecksumHasOneCause (its third part). -/
theorem witness_validate_runs :
    (∃ t, exec .validate (holding v1) = .next t ∧ t.block.ckOk = true) ∧
    (holding v1).block.frameSum = some 0x00F9 ∧ (holding v1).block.fb.read 31 = some 0xF9 :=
  ⟨⟨_, rfl, by decide⟩, by decide, by decide⟩

/-- Both ends of the channel port, and the selector beyond them. -/
theorem witness_ChannelPortReadsPairs :
    validated.block.chValid 0 = true ∧ validated.block.fbByte 4 = some 0x00 ∧ validated.block.fbByte 5 = some 0x01 ∧
    validated.block.chValid 11 = true ∧ validated.block.fbByte 26 = some 0x00 ∧
    validated.block.fbByte 27 = some 0x0C ∧ validated.block.chValid 12 = false ∧
    (holding v1).block.chValid 0 = false := by decide

/-- PortsReturnTheirItems: the last valid byte of FB and of ACKB, the first that is not, and the channels at both ends. -/
theorem witness_PortsReturnTheirItems :
    (collecting 31 []).block.portRead (.fb 30) = .ok ((v1.getD 30 0)) ∧
    (collecting 31 []).block.portRead (.fb 31) = .error .byteNotValid ∧
    (∃ v, (draining 7 []).block.portRead (.ackb 6) = .ok v) ∧
    (draining 7 []).block.portRead (.ackb 7) = .error .byteNotValid ∧
    validated.block.portRead (.ch 0) = .ok 0x0001 ∧ validated.block.portRead (.ch 11) = .ok 0x000C :=
  ⟨rfl, rfl, ⟨_, rfl⟩, rfl, rfl, rfl⟩

/-- V1 validated keeps the invariant. -/
theorem witness_invariant : validated.Inv := by
  refine ⟨?_, ⟨[], by decide, rfl⟩⟩
  constructor
  case verdict => exact fun _ => ⟨by decide, 0x00F9, 0xF9, by decide, by decide, by decide, by decide⟩
  all_goals decide

/-- A step from a state that keeps the invariant (StepKeepsInvariant, StepKeepsParameter). -/
theorem witness_StepKeepsInvariant : ∃ t, step validated = .next t := ⟨_, rfl⟩

/-- InvariantExcludesFaults, its third part: the host returns a record whose channels are shut. -/
theorem witness_InvariantExcludesFaults :
    step { validated with
      script := [.ret], block := { validated.block with ckOk := false } } = .fault .channelNotValid := rfl

theorem witness_OnlyRxByteWritesTheArrays_drain :
    (draining 7 [0x74]).block.st = .drain ∧ Instr.abort ≠ .sync ∧ Instr.abort ≠ .reset ∧
    (∃ t, exec .abort (draining 7 [0x74]) = .next t) ∧
    ∃ t, takeByte (draining 7 [0x74]) = .next t ∧
      t.block.ackb.read 7 ≠ (draining 7 [0x74]).block.ackb.read 7 :=
  ⟨by decide, by decide, by decide, ⟨_, rfl⟩, _, rfl, by decide⟩

/-- OnlyRxByteWritesTheArrays, CountersHaveNamedWriters, StreamsAndHostFrame: an instruction and a byte that go on. -/
theorem witness_frames :
    (∃ t, exec .drain validated = .next t) ∧ Instr.drain ≠ .reset ∧ Instr.drain ≠ .sync ∧
    validated.block.st = .idle ∧
    (∃ t, takeByte (collecting 31 [0xF9]) = .next t ∧
      t.block.fb.read 31 ≠ (collecting 31 [0xF9]).block.fb.read 31) ∧
    transmits .drain = false ∧ Instr.drain.channel ≠ .cmd ∧ Instr.drain.channel ≠ .data ∧
    Instr.drain.channel ≠ .ack :=
  ⟨⟨_, rfl⟩, by decide, by decide, by decide, ⟨_, rfl, by decide⟩, by decide, by decide, by decide, by decide⟩

theorem witness_StreamsAndHostFrame_wire :
    (∃ t, exec (.ack [1, 2, 3, 4, 5, 6, 7, 8]) validated = .next t) ∧
    (Instr.ack [1, 2, 3, 4, 5, 6, 7, 8]).channel = .ack ∧ Instr.cmdSleep.channel = .cmd := ⟨⟨_, rfl⟩, by decide⟩

theorem witness_VerdictLifetime :
    (∃ t, exec .sync validated = .next t) ∧ validated.block.st = .idle ∧
    (∃ t, exec .abort (collecting 12 []) = .next t) ∧ (collecting 12 []).block.st = .collect ∧
    (∃ t, exec .abort (draining 3 []) = .next t) ∧ (draining 3 []).block.st = .drain ∧
    (∃ t, exec .reset validated = .next t) ∧
    (∃ t, exec .validate (synced []) = .next t) ∧ (synced []).block.fbCnt ≠ 32 ∧
    (∃ t, exec .txRead validated = .next t) ∧ (∃ t, takeByte (draining 7 [0x74]) = .next t) :=
  ⟨⟨_, rfl⟩, rfl, ⟨_, rfl⟩, rfl, ⟨_, rfl⟩, rfl, ⟨_, rfl⟩, ⟨_, rfl⟩, by decide, ⟨_, rfl⟩, ⟨_, rfl⟩⟩

/-- Two machines with the same block and different surroundings. -/
theorem witness_TenItemsDetermineTheBlock :
    (inSt .hunt [0x42]).block = ({ inSt .hunt [0x42, 0x07] with tx := sleepFrame, mode := .passive } : State).block ∧
    (inSt .hunt [0x42]).syncMax = ({ inSt .hunt [0x42, 0x07] with tx := sleepFrame, mode := .passive } : State).syncMax ∧
    (∃ t, exec .abort (inSt .hunt [0x42]) = .next t) ∧ (∃ t, takeByte (inSt .hunt [0x42]) = .next t) :=
  ⟨by decide, by decide, ⟨_, rfl⟩, ⟨_, rfl⟩⟩

theorem witness_SeqHasThreeCauses :
    Instr.reserved5.channel = .op ∧ Instr.reserved5 ∈ reservedCodes ∧ (fresh .unbounded []).block.st = .idle ∧
    (∃ t, exec .reserved5 (fresh .unbounded []) = .next t ∧ t.block.err = .seq) :=
  ⟨by decide, by decide, by decide, _, rfl, by decide⟩

theorem witness_ChecksumHasOneCause :
    (holding v1Bad).block.err ≠ .checksum ∧
    (∃ t, exec .validate (holding v1Bad) = .next t ∧ t.block.err = .checksum) ∧
    (holding v1Bad).block.frameSum = some 0x00F9 ∧ (holding v1Bad).block.fb.read 31 = some 0xFA :=
  ⟨by decide, ⟨_, rfl, by decide⟩, by decide, by decide⟩

theorem witness_TimeoutHasTwoCauses :
    (collecting 12 []).block.err ≠ .timeout ∧
    (∃ t, exec .abort (collecting 12 []) = .next t ∧ t.block.err = .timeout) ∧
    (∃ t, takeByte { inSt .hunt [0x42] with
        syncMax := .atMost 0, block := { Block.reset with st := .hunt, scanCnt := 1 } } = .next t ∧
      t.block.err = .timeout) := ⟨by decide, ⟨_, rfl, by decide⟩, ⟨_, rfl, by decide⟩⟩

theorem witness_EarlierErrorHasNoInfluence : Instr.collect.channel = .op ∧ (holding v1).block.st = .idle := by decide

theorem witness_TransitionTable :
    (∃ t, exec .collect (synced []) = .next t) ∧ (∃ t, exec .sync (inSt .hunt []) = .next t) ∧
    (inSt .got42 [0x4D]).rx = 0x4D :: [] ∧ (∃ t, takeByte (inSt .got42 [0x4D]) = .next t) :=
  ⟨⟨_, rfl⟩, ⟨_, rfl⟩, rfl, ⟨_, rfl⟩⟩

theorem witness_ReachableStatesKeepR28 :
    ∃ t, Sys2Proof.core.run 3
      { State.resetWith .unbounded [0x42, 0x4D] with script := [.issue 0x1], turns := [] } = .next t ∧
      t.block.fbCnt = 2 := ⟨_, rfl, by decide⟩

/-- Each of the four lines that wait, and the two instructions that do not. -/
theorem witness_SilentLineBlocks :
    (inSt .hunt []).block.st ≠ .idle ∧ (inSt .hunt []).rx = [] ∧ (inSt .hunt []).turns = [] ∧
    (∀ l ∈ [Line.issue 0x1, Line.await, Line.check, Line.reset],
      step { inSt .hunt [] with script := [l] } = .next { inSt .hunt [] with script := [l] }) ∧
    (∃ t, exec .abort (inSt .hunt []) = .next t ∧ t.block ≠ (inSt .hunt []).block) := by
  refine ⟨by decide, by decide, by decide, ?_, _, rfl, by decide⟩
  simp only [List.forall_mem_cons]
  exact ⟨rfl, rfl, rfl, rfl, nofun⟩

theorem witness_WaitingByteIsTaken :
    (inSt .hunt [0x42]).turns = [] ∧ (inSt .hunt [0x42]).rx = 0x42 :: [] ∧ (inSt .hunt [0x42]).block.st ≠ .idle ∧
    ∃ t, step (inSt .hunt [0x42]) = .next t := ⟨by decide, by decide, by decide, _, rfl⟩

theorem witness_PeriodOrder :
    ({ inSt .hunt [0x42] with turns := [.period ⟨true, true, true, some 0x1⟩] } : State).turns =
      .period ⟨true, true, true, some 0x1⟩ :: [] ∧
    ({ inSt .hunt [0x42] with turns := [.period ⟨false, true, true, none⟩] } : State).turns =
      .period ⟨false, true, true, none⟩ :: [] ∧
    ({ inSt .hunt [0x42] with turns := [.period ⟨false, true, true, none⟩] } : State).block.st ≠ .idle := by decide

/-- PeriodOrder, its second clause, without an Abort: the byte completes the marker, and the code sampled with it is
accepted in the idle block. -/
theorem witness_PeriodOrder_byte_then_code :
    ∃ s2 s3, takeByte (inSt .got42 [0x4D]) = .next s2 ∧ s2.block.st = .idle ∧
      exec (decodeOp 0x2) s2 = .next s3 ∧ s3.block.st = .collect := ⟨_, _, rfl, by decide, rfl, by decide⟩

/-- PeriodOrder, its second and third clause, with all three sampled: the Abort, then no byte, then the code. -/
theorem witness_PeriodOrder_abort_then_code :
    ∃ s1 s3, exec .abort (inSt .got42 [0x4D]) = .next s1 ∧ takeByte s1 = .next s1 ∧ s1.rx = [0x4D] ∧
      exec (decodeOp 0x1) s1 = .next s3 ∧ s3.block.st = .hunt := ⟨_, _, rfl, rfl, by decide, rfl, by decide⟩

/-- P1 of spec/95: two bytes of garbage and V1. -/
theorem witness_ReadReturnsTheFramesChannels :
    ({ fresh .unbounded ([0xFF, 0xFF] ++ v1 ++ []) with script := [.pseudo .read] } : State).turns = [] ∧
    v1.length = 32 ∧ EndsAtFirstMarker ([0xFF, 0xFF] ++ v1.take 2) ∧
    (fresh .unbounded ([0xFF, 0xFF] ++ v1 ++ [])).syncMax.toNat = 0 ∧
    natSum (v1.take 30) % 256 = (v1.getD 31 0).toNat ∧ natSum (v1Bad.take 30) % 256 ≠ (v1Bad.getD 31 0).toNat := by
  refine ⟨by decide, by decide, ⟨by decide, by decide⟩, by decide, by decide, by decide⟩

/-- P2 of spec/95: the acknowledgment that follows SET_MODE. -/
theorem witness_SetModeSendsAndDrains :
    ({ fresh .unbounded ([0x42, 0x4D, 0x00, 0x04, 0xE1, 0x00, 0x01, 0x74] ++ []) with
      script := [.pseudo (.setMode .passive)] } : State).script = [.pseudo (.setMode .passive)] ∧
    ([0x42, 0x4D, 0x00, 0x04, 0xE1, 0x00, 0x01, 0x74] : List Byte).length = 8 := by decide

/-- SessionsFailOnTimeout, its first clause: a DRAIN aborted. -/
theorem witness_SessionsFailOnTimeout_abort :
    (draining 7 []).block.st ≠ .idle ∧
    ∃ t, Sys2Proof.core.run 3 { draining 7 [] with
      turns := [.present .abort []], script := [.await, .check, .closeLink, .done] } = .next t ∧
      t.FailedOnTimeout [] := ⟨by decide, _, rfl, by decide, by decide, rfl, rfl, rfl⟩

/-- SessionsFailOnTimeout on READ: a marker just beyond the least bound, a byte just short of it, and a frame that lacks
its last byte. -/
theorem witness_SessionsFailOnTimeout_read :
    (fresh (.atMost 0) [0xFF, 0x42, 0x4D]).syncMax.toNat = 2 ∧
    ¬ [0x42, 0x4D] <:+: ([0xFF, 0x42, 0x4D] : List Byte).take 2 ∧
    ¬ [0x42, 0x4D] <:+: ([0x42] : List Byte) ∧ ([0x42] : List Byte).length < 2 ∧
    EndsAtFirstMarker ((v1.take 31).take 2) ∧ (v1.take 31).length < 2 + 30 ∧
    (fresh (.atMost 0) []).block.st = .idle ∧ (fresh (.atMost 0) []).turns = [] :=
  ⟨by decide, by decide, by decide, by decide, ⟨by decide, by decide⟩, by decide, by decide, by decide⟩

/-- SessionsFailOnTimeout on SET_MODE: an acknowledgment that lacks its last byte. -/
theorem witness_SessionsFailOnTimeout_setMode :
    ({ fresh .unbounded [0x42, 0x4D, 0x00, 0x04, 0xE1, 0x00, 0x01] with
      script := [.pseudo (.setMode .passive)] } : State).rx.length < 8 ∧
    ∃ w, Sys2Proof.core.run 13 { fresh .unbounded [0x42, 0x4D, 0x00, 0x04, 0xE1, 0x00, 0x01] with
      script := [.pseudo (.setMode .passive)] } = .next w ∧ w.rx = [] ∧ w.block.st = .drain :=
  ⟨by decide, _, rfl, by decide, by decide⟩

theorem witness_SleepAndWakeOnlySend :
    ({ fresh .unbounded [] with script := [.pseudo .sleep] } : State).turns = [] ∧
    ({ fresh .unbounded [] with script := [.pseudo .sleep] } : State).block.st = .idle ∧
    ({ fresh .unbounded [] with script := [.pseudo .sleep] } : State).script = [.pseudo .sleep] := by decide

end Sys2Proof.Tests
end

section
/-! What a step amounts to, whoever makes it: an instruction, a taking of a byte, or a move that leaves the block, the
parameter and TX alone. Claims about all steps follow from claims about the two kinds of event. -/

namespace Sys2Proof.Machine

variable {s t u : State}

/-- Two states that differ at most in RX, in what the host keeps and in who moves next: the items that the invariant of
R28 reads are the same. -/
structure SameUnit (s t : State) : Prop where
  block : t.block = s.block
  syncMax : t.syncMax = s.syncMax
  tx : t.tx = s.tx

theorem SameUnit.refl (s : State) : SameUnit s s := ⟨rfl, rfl, rfl⟩

theorem SameUnit.trans (h : SameUnit s t) (h' : SameUnit t u) : SameUnit s u :=
  ⟨h'.block.trans h.block, h'.syncMax.trans h.syncMax, h'.tx.trans h.tx⟩

/-- The kinds of move: nothing of the unit changes, or one event happens in a state with the same unit (a line or a turn
has been taken off its list before). -/
inductive Move (s t : State) : Prop where
  | quiet (h : SameUnit s t)
  | instr (i : Instr) (u : State) (hu : SameUnit s u) (h : exec i u = .next t)
  | byte (u : State) (hu : SameUnit s u) (h : takeByte u = .next t)

theorem Move.after : Move u t → SameUnit s u → Move s t
  | .quiet h, hu => .quiet (hu.trans h)
  | .instr i w hw h, hu => .instr i w (hu.trans hw) h
  | .byte w hw h, hu => .byte w (hu.trans hw) h

theorem Move.of_runWord {c : Channel} {bytes : List Byte} (h : runWord c bytes s = .next t) : Move s t :=
  let ⟨i, _, h⟩ := runWord_next h
  .instr i s (.refl s) h

/-- A line of the host whose time has not come leaves the machine as it was; else it is a move. -/
theorem runLine_cases {l : Line} {wait : State} (h : runLine l wait s = .next t) : t = wait ∨ Move s t := by
  cases l <;> simp only [runLine] at h
  case issue code =>
    split at h
    · exact .inr (.of_runWord h)
    · cases h; exact .inl rfl
  case await =>
    split at h <;> cases h
    · exact .inr (.quiet (.refl s))
    · exact .inl rfl
  case abort => exact .inr (.of_runWord h)
  case reset =>
    split at h
    · exact .inr (.of_runWord h)
    · cases h; exact .inl rfl
  case check =>
    split at h
    · split at h <;> cases h <;> exact .inr (.quiet ⟨rfl, rfl, rfl⟩)
    · cases h; exact .inl rfl
  case ret =>
    split at h <;> cases h
    exact .inr (.quiet ⟨rfl, rfl, rfl⟩)
  all_goals cases h; exact .inr (.quiet ⟨rfl, rfl, rfl⟩)

theorem Move.of_hostMove (h : hostMove s = .next t) : Move s t := by
  unfold hostMove at h
  split at h
  · cases h; exact .quiet (.refl s)
  · rcases runLine_cases h with rfl | hm
    · exact .quiet (.refl t)
    · exact hm.after ⟨rfl, rfl, rfl⟩

theorem Move.of_runTurn {turn : Turn} (h : runTurn turn s = .next t) : Move s t := by
  cases turn with
  | present c bytes => exact .of_runWord h
  | arrive bytes => cases h; exact .quiet ⟨rfl, rfl, rfl⟩
  | refill bytes => cases h; exact .quiet ⟨rfl, rfl, rfl⟩
  | take => exact .byte s (.refl s) h
  | carry =>
    simp only [runTurn, carryFrame] at h
    split at h
    · cases h; exact .quiet (.refl s)
    · exact .of_runWord h
  | host => exact .of_hostMove h
  | period p => cases h; exact .quiet ⟨rfl, rfl, rfl⟩

/-- Every step is a move. -/
theorem Move.of_step (h : step s = .next t) : Move s t := by
  rcases step_cases h with ⟨_, _, _, h⟩ | ⟨_, _, h⟩ | ⟨_, _, h⟩
  · exact (Move.of_runTurn h).after ⟨rfl, rfl, rfl⟩
  · exact .byte s (.refl s) h
  · exact .of_hostMove h

end Sys2Proof.Machine
end

section
/-! SYNC_MAX_BYTES is an argument of the model (R3): no event and so no step writes it. -/

namespace Sys2Proof.Machine

variable {s t : State}

theorem exec_syncMax {i : Instr} (h : exec i s = .next t) : t.syncMax = s.syncMax := by
  rcases exec_cases i s with ⟨hc, e⟩ | ⟨rfl, e⟩ | ⟨rfl, e⟩ | ⟨hc, e⟩ | ⟨hc, e⟩ <;> rw [e] at h
  · rcases accept_cases h with ⟨_, hact⟩ | ⟨_, rfl⟩
    · obtain ⟨hmax, _⟩ := opAct_frame hc hact
      exact hmax
    · rfl
  all_goals cases h; simp only [State.mapBlock_syncMax, State.txCarry_syncMax, State.rxAppend_syncMax]

theorem takeByte_syncMax (h : takeByte s = .next t) : t.syncMax = s.syncMax := by
  rcases takeByte_cases h with ⟨_, rfl⟩ | ⟨_, _, _, _, _, _, rfl⟩ <;> rfl

theorem Move.syncMax : Move s t → t.syncMax = s.syncMax
  | .quiet h => h.syncMax
  | .instr _ _ hu h => (exec_syncMax h).trans hu.syncMax
  | .byte _ hu h => (takeByte_syncMax h).trans hu.syncMax

/-- Settles O51: a step is an event or leaves the unit alone, and no event writes the parameter. -/
theorem stepKeepsParameter : Obligations.StepKeepsParameter :=
  fun _ _ h => (Move.of_step h).syncMax

end Sys2Proof.Machine
end

section
/-! The invariant of R28 in two parts: what the arrays, their counts and the verdict hold, whatever the sequencer does,
and what the sequencer's state adds while an operation is in progress. Most operations touch one part only. -/

namespace Sys2Proof.Machine

variable {bound : ScanBound} {b b' : Block} {m : Memory} {space n : Nat}

/-- An array whose first `n` bytes stand: canonical, within its space (R40), every valid byte written (R17). -/
structure Memory.Holds (space n : Nat) (m : Memory) : Prop where
  wf : m.wf
  within : ∀ c ∈ m, c.1 < space
  count : n ≤ space
  written : ∀ i < n, (m.read i).isSome = true

theorem Memory.Holds.mono {k : Nat} (h : m.Holds space n) (hk : k ≤ n) : m.Holds space k where
  wf := h.wf
  within := h.within
  count := hk.trans h.count
  written i hi := h.written i (hi.trans_le hk)

/-- Writing the first byte that does not stand makes it stand. -/
theorem Memory.Holds.write (h : m.Holds space n) (hn : n < space) (v : Byte) : (m.write n v).Holds space (n + 1) where
  wf := m.write_wf n v h.wf
  within := m.write_space n v h.within hn
  count := hn
  written i hi := by
    rw [Memory.read_write]
    split
    · rfl
    · exact h.written i (by omega)

/-- FB with `n` bytes of a frame (R12, R18): none, or at least the marker. -/
structure FrameInv (fb : Memory) (n : Nat) : Prop where
  holds : fb.Holds 32 n
  not_one : n ≠ 1
  marker : 2 ≤ n → fb.read 0 = some 0x42 ∧ fb.read 1 = some 0x4D

theorem FrameInv.drop (h : FrameInv m n) : FrameInv m 0 :=
  ⟨h.holds.mono n.zero_le, Nat.zero_ne_one, fun h2 => absurd h2 (by decide)⟩

/-- The marker written into FB (R104). -/
theorem FrameInv.storeMarker (h : FrameInv m n) : FrameInv ((m.write 0 Config.marker0).write 1 Config.marker1) 2 where
  holds := (h.drop.holds.write (by decide) _).write (by decide) _
  not_one := by decide
  marker _ := by simp [Memory.read_write]

/-- A byte of COLLECT written behind the marker (R108). -/
theorem FrameInv.storeByte (h : FrameInv m n) (h2 : 2 ≤ n) (hn : n < 32) (v : Byte) :
    FrameInv (m.write n v) (n + 1) where
  holds := h.holds.write hn v
  not_one := by omega
  marker _ := by
    rw [Memory.read_write_other m n v (by omega), Memory.read_write_other m n v (by omega)]
    exact h.marker h2

/-- The part of R28 that does not speak of the sequencer: FB, ACKB, their counts, and the verdict. -/
structure Block.DataInv (b : Block) : Prop where
  frame : FrameInv b.fb b.fbCnt.toNat
  ack : b.ackb.Holds 8 b.ackCnt.toNat
  ok_valid : b.ckOk = true → b.ckValid = true
  verdict : b.ckValid = true → b.fbCnt.toNat = 32 ∧ ∃ total ck, b.frameSum = some total ∧
    b.fb.read 31 = some ck ∧ b.sum = total ∧ b.ckOk = sumMatches total ck

/-- The part of R28 about an operation in progress, with the bound of R105. -/
structure Block.SeqInv (bound : ScanBound) (b : Block) : Prop where
  scanning : b.st = .hunt ∨ b.st = .got42 → b.fbCnt = 0 ∧ b.ckValid = false ∧ b.ckOk = false
  scan_below : b.st = .hunt ∨ b.st = .got42 → bound.toNat ≠ 0 → b.scanCnt.toNat < bound.toNat
  collecting : b.st = .collect → 2 ≤ b.fbCnt.toNat ∧ b.fbCnt.toNat ≤ 31 ∧ b.ckValid = false
  draining : b.st = .drain → b.ackCnt.toNat ≤ 7
  busy_err : b.st ≠ .idle → b.err = .none

theorem Block.Inv.data (h : b.Inv bound) : b.DataInv where
  frame := ⟨⟨h.fb_wf, h.fb_space, by have := h.fbCnt_legal; omega, h.fb_written⟩, by have := h.fbCnt_legal; omega,
    h.marker⟩
  ack := ⟨h.ackb_wf, h.ackb_space, h.ackCnt_legal, h.ackb_written⟩
  ok_valid := h.ok_valid
  verdict := h.verdict

theorem Block.DataInv.inv (h : b.DataInv) (hs : b.SeqInv bound) : b.Inv bound where
  fb_wf := h.frame.holds.wf
  ackb_wf := h.ack.wf
  fb_space := h.frame.holds.within
  ackb_space := h.ack.within
  fbCnt_legal := by have := h.frame.holds.count; have := h.frame.not_one; omega
  ackCnt_legal := h.ack.count
  fb_written := h.frame.holds.written
  ackb_written := h.ack.written
  scanning := hs.scanning
  scan_below := hs.scan_below
  collecting := hs.collecting
  draining := hs.draining
  marker := h.frame.marker
  ok_valid := h.ok_valid
  verdict := h.verdict
  busy_err := hs.busy_err

/-! ### The sequencer's part, by the state of the sequencer -/

theorem Block.SeqInv.of_idle (hst : b.st = .idle) : b.SeqInv bound := by
  constructor <;> simp [hst]

theorem Block.SeqInv.of_scanning (hst : b.st = .hunt ∨ b.st = .got42)
    (hdrop : b.fbCnt = 0 ∧ b.ckValid = false ∧ b.ckOk = false)
    (hbelow : bound.toNat ≠ 0 → b.scanCnt.toNat < bound.toNat) (herr : b.err = .none) : b.SeqInv bound where
  scanning _ := hdrop
  scan_below _ := hbelow
  collecting h := by simp [h] at hst
  draining h := by simp [h] at hst
  busy_err _ := herr

theorem Block.SeqInv.of_collecting (hst : b.st = .collect) (h2 : 2 ≤ b.fbCnt.toNat) (h31 : b.fbCnt.toNat ≤ 31)
    (hval : b.ckValid = false) (herr : b.err = .none) : b.SeqInv bound where
  scanning h := by simp [hst] at h
  scan_below h := by simp [hst] at h
  collecting _ := ⟨h2, h31, hval⟩
  draining h := by simp [hst] at h
  busy_err _ := herr

theorem Block.SeqInv.of_draining (hst : b.st = .drain) (h7 : b.ackCnt.toNat ≤ 7) (herr : b.err = .none) :
    b.SeqInv bound where
  scanning h := by simp [hst] at h
  scan_below h := by simp [hst] at h
  collecting h := by simp [hst] at h
  draining _ := h7
  busy_err _ := herr

/-! ### The data's part, by what is written -/

/-- The frame sum depends on FB and `fb_cnt` alone. -/
theorem Block.frameSum_congr (hfb : b'.fb = b.fb) (hcnt : b'.fbCnt = b.fbCnt) : b'.frameSum = b.frameSum := by
  have hbytes : b'.fbBytes 0 Config.sumLen = b.fbBytes 0 Config.sumLen :=
    Block.fbBytes_congr fun i _ _ => by simp only [Block.fbByte, hfb, hcnt]
  simp only [Block.frameSum, hbytes]

/-- `st`, `SCAN_CNT` and `ERR` do not matter to the data's part. -/
theorem Block.DataInv.congr (h : b.DataInv) (hfb : b'.fb = b.fb) (hfbCnt : b'.fbCnt = b.fbCnt)
    (hackb : b'.ackb = b.ackb) (hackCnt : b'.ackCnt = b.ackCnt) (hsum : b'.sum = b.sum)
    (hval : b'.ckValid = b.ckValid) (hok : b'.ckOk = b.ckOk) : b'.DataInv := by
  have hframe := Block.frameSum_congr hfb hfbCnt
  constructor <;> simp only [hframe, hfb, hfbCnt, hackb, hackCnt, hsum, hval, hok]
  exacts [h.frame, h.ack, h.ok_valid, h.verdict]

/-- Without a verdict only the arrays matter. -/
theorem Block.DataInv.of_no_verdict (hframe : FrameInv b.fb b.fbCnt.toNat) (hack : b.ackb.Holds 8 b.ackCnt.toNat)
    (hval : b.ckValid = false) (hok : b.ckOk = false) : b.DataInv where
  frame := hframe
  ack := hack
  ok_valid h := by simp [hok] at h
  verdict h := by simp [hval] at h

theorem Block.DataInv.ckOk_false (h : b.DataInv) (hval : b.ckValid = false) : b.ckOk = false := by
  have := h.ok_valid
  simpa [hval] using this

theorem Block.DataInv.clearErr (h : b.DataInv) : b.clearErr.DataInv := h.congr rfl rfl rfl rfl rfl rfl rfl

theorem Block.DataInv.raise (h : b.DataInv) (e : Err) : (b.raise e).DataInv := h.congr rfl rfl rfl rfl rfl rfl rfl

theorem Block.DataInv.goto (h : b.DataInv) (x : St) : (b.goto x).DataInv := h.congr rfl rfl rfl rfl rfl rfl rfl

theorem Block.DataInv.clearScan (h : b.DataInv) : b.clearScan.DataInv := h.congr rfl rfl rfl rfl rfl rfl rfl

theorem Block.DataInv.countByte (h : b.DataInv) : b.countByte.DataInv := h.congr rfl rfl rfl rfl rfl rfl rfl

theorem Block.DataInv.dropFrame (h : b.DataInv) : b.dropFrame.DataInv := .of_no_verdict h.frame.drop h.ack rfl rfl

theorem Block.DataInv.clearAck (h : b.DataInv) : b.clearAck.DataInv where
  frame := h.frame
  ack := h.ack.mono (Nat.zero_le _)
  ok_valid := h.ok_valid
  verdict := h.verdict

/-- VALIDATE's verdict is the one its sum and the compared byte give (R130). -/
theorem Block.DataInv.giveVerdict {total : Half} {ck : Byte} {ok : Bool} (h : b.DataInv) (hcnt : b.fbCnt = 32)
    (hsum : b.frameSum = some total) (hck : b.fbByte 31 = some ck) (hok : sumMatches total ck = ok) :
    (b.giveVerdict total ok).DataInv where
  frame := h.frame
  ack := h.ack
  ok_valid _ := rfl
  verdict _ := by
    have hread : b.fb.read 31 = some ck := by simpa [Block.fbByte, hcnt] using hck
    exact ⟨congrArg BitVec.toNat hcnt, total, ck, (Block.frameSum_congr rfl rfl).trans hsum, hread, rfl, hok.symm⟩

theorem Block.DataInv.storeMarker (h : b.DataInv) (hval : b.ckValid = false) : b.storeMarker.DataInv :=
  .of_no_verdict h.frame.storeMarker h.ack hval (h.ckOk_false hval)

end Sys2Proof.Machine
end

section
/-! Each event keeps the invariant of R28 for the block. -/

namespace Sys2Proof.Machine

variable {bound : ScanBound} {b b' : Block}

theorem Block.DataInv.inv_of_idle (h : b.DataInv) (hst : b.st = .idle) : b.Inv bound := h.inv (.of_idle hst)

theorem Block.Inv.raise (h : b.Inv bound) (e : Err) : (b.raise e).Inv bound := (h.data.raise e).inv_of_idle rfl

theorem Block.reset_inv (bound : ScanBound) : Block.reset.Inv bound := by
  refine Block.DataInv.inv_of_idle (.of_no_verdict ?_ ?_ rfl rfl) rfl
  · exact ⟨⟨.nil, nofun, by decide, nofun⟩, by decide, by decide⟩
  · exact ⟨.nil, nofun, by decide, nofun⟩

/-- SYNC, accepted (R100): the scan's count is 0, below any bound. -/
theorem Block.Inv.startScan (h : b.Inv bound) (herr : b.err = .none) :
    (b.dropFrame.clearScan.goto .hunt).Inv bound := by
  refine (h.data.dropFrame.clearScan.goto .hunt).inv (.of_scanning (.inl rfl) ⟨rfl, rfl, rfl⟩ (fun hb => ?_) herr)
  exact Nat.pos_of_ne_zero hb

/-- COLLECT, accepted (R107): with just the marker in FB there is no verdict. -/
theorem Block.Inv.startCollect (h : b.Inv bound) (herr : b.err = .none) (hcnt : b.fbCnt = 2) :
    (b.goto .collect).Inv bound := by
  have hval : b.ckValid = false := by
    by_contra hv
    have hwhole := (h.verdict (by simpa using hv)).1
    simp [hcnt] at hwhole
  exact (h.data.goto .collect).inv (.of_collecting rfl (by simp [hcnt]) (by simp [hcnt]) hval herr)

/-- DRAIN, accepted (R112). -/
theorem Block.Inv.startDrain (h : b.Inv bound) (herr : b.err = .none) : (b.clearAck.goto .drain).Inv bound :=
  (h.data.clearAck.goto .drain).inv (.of_draining rfl (by simp) herr)

/-- Abort in any state (R170, R171). -/
theorem Block.Inv.abort (h : b.Inv bound) : b.abort.Inv bound := by
  cases hst : b.st <;> simp only [Block.abort, hst]
  case idle => exact h
  case drain => exact h.raise .timeout
  case hunt | got42 | collect => exact (h.data.dropFrame.raise .timeout).inv_of_idle rfl

/-- A byte of a scan that does not complete the marker (R101 to R103): the scan ends at its bound, or is still
below it (R105). -/
theorem Block.Inv.scanByte {x : St} (h : b.Inv bound) (hst : b.st = .hunt ∨ b.st = .got42)
    (hx : x = .hunt ∨ x = .got42) : ((b.countByte.goto x).checkBound bound).Inv bound := by
  rcases Block.checkBound_cases bound (b.countByte.goto x) with ⟨_, _, e⟩ | ⟨hmiss, e⟩ <;> rw [e]
  · exact ((h.data.countByte.goto x).raise .timeout).inv_of_idle rfl
  · refine (h.data.countByte.goto x).inv (.of_scanning hx (h.scanning hst) (fun hb => ?_) (h.busy_err ?_))
    · have hcount : (b.countByte.goto x).scanCnt.toNat = min (b.scanCnt.toNat + 1) 0xFFFF := b.countByte_toNat
      have := h.scan_below hst hb
      have := ScanBound.toNat_legal bound
      omega
    · rcases hst with hst | hst <;> simp [hst]

/-- The byte that completes the marker (R104). -/
theorem Block.Inv.markerByte (h : b.Inv bound) (hst : b.st = .got42) :
    (b.countByte.storeMarker.goto .idle).Inv bound := by
  obtain ⟨_, hval, _⟩ := h.scanning (.inr hst)
  exact ((h.data.countByte.storeMarker hval).goto .idle).inv_of_idle rfl

/-- A byte of COLLECT (R108, R109). -/
theorem Block.Inv.collectByte (h : b.Inv bound) (hst : b.st = .collect) (v : Byte) :
    ({ b with
      fb := b.fb.write b.fbCnt.toNat v, fbCnt := b.fbCnt + 1
      st := if b.fbCnt.toNat = 31 then .idle else .collect } : Block).Inv bound := by
  obtain ⟨h2, h31, hval⟩ := h.collecting hst
  have hcnt : (b.fbCnt + 1).toNat = b.fbCnt.toNat + 1 := by bv_omega
  have hdata : ∀ x : St,
      ({ b with fb := b.fb.write b.fbCnt.toNat v, fbCnt := b.fbCnt + 1, st := x } : Block).DataInv := fun x =>
    .of_no_verdict (hcnt ▸ h.data.frame.storeByte h2 (by omega) v) h.data.ack hval (h.data.ckOk_false hval)
  split
  · exact (hdata .idle).inv_of_idle rfl
  · exact (hdata .collect).inv
      (.of_collecting rfl (by rw [hcnt]; omega) (by rw [hcnt]; omega) hval (h.busy_err (by simp [hst])))

/-- A byte of DRAIN (R113, R114). -/
theorem Block.Inv.drainByte (h : b.Inv bound) (hst : b.st = .drain) (v : Byte) :
    ({ b with
      ackb := b.ackb.write b.ackCnt.toNat v, ackCnt := b.ackCnt + 1
      st := if b.ackCnt.toNat = 7 then .idle else .drain } : Block).Inv bound := by
  have h7 := h.draining hst
  have hcnt : (b.ackCnt + 1).toNat = b.ackCnt.toNat + 1 := by bv_omega
  have hdata : ∀ x : St,
      ({ b with ackb := b.ackb.write b.ackCnt.toNat v, ackCnt := b.ackCnt + 1, st := x } : Block).DataInv := fun x =>
    { frame := h.data.frame
      ack := hcnt ▸ h.data.ack.write (by omega) v
      ok_valid := h.ok_valid
      verdict := Block.frameSum_congr (b := b) (b' := { b with ackb := _, ackCnt := _, st := _ }) rfl rfl ▸ h.verdict }
  split
  · exact (hdata .idle).inv_of_idle rfl
  · exact (hdata .drain).inv (.of_draining rfl (by rw [hcnt]; omega) (h.busy_err (by simp [hst])))

/-- RxByte keeps the invariant. -/
theorem Block.Inv.after_rxByte {v : Byte} (h : b.Inv bound) (hr : b.rxByte bound v = .ok b') : b'.Inv bound := by
  rcases Block.rxByte_cases hr with ⟨_, rfl⟩ | ⟨hst, rfl⟩ | ⟨hst, _, rfl⟩ | ⟨hst, _, rfl⟩ | ⟨hst, _, rfl⟩
  · exact h
  · refine h.scanByte (hst.imp_right And.left) ?_
    split
    · exact .inr rfl
    · exact .inl rfl
  · exact h.markerByte hst
  · exact h.collectByte hst v
  · exact h.drainByte hst v

end Sys2Proof.Machine
end

section
/-! TX holds whole command frames: the TX operations push one, a frame leaves it whole (R45, R47). -/

namespace Sys2Proof.Machine

variable {tx rest f : List Byte}

theorem TxFrames.nil : TxFrames [] := ⟨[], by simp, rfl⟩

theorem TxFrames.push (h : TxFrames tx) (hf : f ∈ commandFrames) : TxFrames (tx ++ f) := by
  obtain ⟨fs, hfs, rfl⟩ := h
  refine ⟨fs ++ [f], fun g hg => ?_, by simp⟩
  rcases List.mem_append.1 hg with hg | hg
  · exact hfs g hg
  · exact List.mem_singleton.1 hg ▸ hf

/-- All command frames have one length, so the first frame of TX is the one that leaves. -/
theorem TxFrames.of_append (h : TxFrames (f ++ rest)) (hf : f ∈ commandFrames) : TxFrames rest := by
  have hlen : ∀ g ∈ commandFrames, g.length = 7 := by decide
  obtain ⟨fs, hfs, e⟩ := h
  cases fs with
  | nil =>
    have hnil : f = [] := List.append_eq_nil_iff.1 e |>.1
    simpa [hnil] using hlen f hf
  | cons g gs =>
    have hg := hfs g List.mem_cons_self
    obtain ⟨_, hrest⟩ := List.append_inj (e.trans List.flatten_cons) ((hlen f hf).trans (hlen g hg).symm)
    exact ⟨gs, fun x hx => hfs x (List.mem_cons_of_mem g hx), hrest⟩

theorem TxFrames.carry {s : State} (h : TxFrames s.tx) (hf : f ∈ commandFrames) : TxFrames (s.txCarry f).tx := by
  by_cases hp : f <+: s.tx
  · obtain ⟨rest, hrest⟩ := hp
    rw [State.txCarry_tx_of_prefix s f rest hrest.symm]
    exact TxFrames.of_append (hrest.symm ▸ h) hf
  · rwa [State.txCarry_of_not_prefix s f hp]

theorem encode_mem_commandFrames {i : Instr} (h : i.channel = .cmd) : encode i ∈ commandFrames := by
  cases i <;> simp only [Instr.channel, reduceCtorEq] at h <;> decide

end Sys2Proof.Machine
end

section
/-! The invariant of the machine is kept by every event, so by every step and along every run. -/

namespace Sys2Proof.Machine

variable {s t u : State}

/-- What an operation does once accepted keeps the invariant. -/
theorem State.Inv.after_opAct {i : Instr} (hs : s.Inv) (hst : s.block.st = .idle) (herr : s.block.err = .none)
    (hc : i.channel = .op) (h : opAct i s = .next t) : t.Inv := by
  cases i <;> simp only [Instr.channel, reduceCtorEq] at hc
  case sync => cases h; exact ⟨hs.block.startScan herr, hs.tx⟩
  case collect =>
    simp only [opAct, collectAct] at h
    split at h <;> cases h
    · exact ⟨hs.block.startCollect herr ‹_›, hs.tx⟩
    · exact ⟨hs.block.raise .seq, hs.tx⟩
  case validate =>
    rcases validateAct_cases h with ⟨_, rfl⟩ | ⟨total, ck, hcnt, hsum, hck, hv⟩
    · exact ⟨hs.block.raise .seq, hs.tx⟩
    have hdata {ok : Bool} (hok : sumMatches total ck = ok) := hs.block.data.giveVerdict hcnt hsum hck hok
    rcases hv with ⟨hok, rfl⟩ | ⟨hok, rfl⟩
    · exact ⟨(hdata hok).inv_of_idle hst, hs.tx⟩
    · exact ⟨((hdata hok).raise .checksum).inv_of_idle rfl, hs.tx⟩
  case drain => cases h; exact ⟨hs.block.startDrain herr, hs.tx⟩
  case txSleep | txWake | txPassive | txActive | txRead => cases h; exact ⟨hs.block, hs.tx.push (by decide)⟩
  all_goals cases h; exact ⟨hs.block.raise .seq, hs.tx⟩

/-- The first act of an acceptance keeps the invariant (R21). -/
theorem State.Inv.clearErr (hs : s.Inv) (hst : s.block.st = .idle) : (s.mapBlock Block.clearErr).Inv :=
  ⟨hs.block.data.clearErr.inv_of_idle hst, hs.tx⟩

/-- Every instruction keeps the invariant. -/
theorem State.Inv.after_exec {i : Instr} (hs : s.Inv) (h : exec i s = .next t) : t.Inv := by
  rcases exec_cases i s with ⟨hc, e⟩ | ⟨rfl, e⟩ | ⟨rfl, e⟩ | ⟨hc, e⟩ | ⟨hc, e⟩ <;> rw [e] at h
  · rcases accept_cases h with ⟨hst, hact⟩ | ⟨_, rfl⟩
    · exact (hs.clearErr hst).after_opAct hst rfl hc hact
    · exact hs
  · cases h; exact ⟨hs.block.abort, hs.tx⟩
  · cases h; exact ⟨Block.reset_inv _, hs.tx⟩
  · cases h
    refine ⟨?_, hs.tx.carry (encode_mem_commandFrames hc)⟩
    rw [State.txCarry_block, State.txCarry_syncMax]
    exact hs.block
  · cases h; exact ⟨hs.block, hs.tx⟩

/-- Every taking of a byte keeps the invariant. -/
theorem State.Inv.after_takeByte (hs : s.Inv) (h : takeByte s = .next t) : t.Inv := by
  rcases takeByte_cases h with ⟨_, rfl⟩ | ⟨_, _, _, _, _, hb, rfl⟩
  · exact hs
  · exact ⟨hs.block.after_rxByte hb, hs.tx⟩

theorem State.Inv.of_sameUnit (hs : s.Inv) (h : SameUnit s t) : t.Inv :=
  ⟨by rw [h.block, h.syncMax]; exact hs.block, by rw [h.tx]; exact hs.tx⟩

theorem State.Inv.after_move (hs : s.Inv) : Move s t → t.Inv
  | .quiet h => hs.of_sameUnit h
  | .instr _ _ hu h => (hs.of_sameUnit hu).after_exec h
  | .byte _ hu h => (hs.of_sameUnit hu).after_takeByte h

/-- Settles O48: a step is an event or leaves the unit alone, and every event keeps the invariant. -/
theorem stepKeepsInvariant : Obligations.StepKeepsInvariant :=
  fun _ _ hs h => hs.after_move (Move.of_step h)

/-- Settles O47: after Reset nothing is valid and TX is empty. -/
theorem resetHasInvariant : Obligations.ResetHasInvariant :=
  fun bound _ => ⟨Block.reset_inv bound, .nil⟩

end Sys2Proof.Machine
end

section
/-! What the invariant gives: every read the block makes of its arrays has a value, so every event answers. -/

namespace Sys2Proof.Machine

variable {bound : ScanBound} {b : Block} {s u : State}

/-- A valid byte of FB is a byte below `fb_cnt` that has been written (R17). -/
theorem Block.fbByte_eq_some {i : Nat} {v : Byte} :
    b.fbByte i = some v ↔ i < b.fbCnt.toNat ∧ b.fb.read i = some v := by
  simp [Block.fbByte]

/-- The same of ACKB. -/
theorem Block.ackByte_eq_some {i : Nat} {v : Byte} :
    b.ackByte i = some v ↔ i < b.ackCnt.toNat ∧ b.ackb.read i = some v := by
  simp [Block.ackByte]

theorem Block.Inv.fbByte_exists {i : Nat} (h : b.Inv bound) (hi : i < b.fbCnt.toNat) : ∃ v, b.fbByte i = some v := by
  obtain ⟨v, hv⟩ := Option.isSome_iff_exists.1 (h.fb_written i hi)
  exact ⟨v, Block.fbByte_eq_some.2 ⟨hi, hv⟩⟩

theorem Block.Inv.ackByte_exists {i : Nat} (h : b.Inv bound) (hi : i < b.ackCnt.toNat) :
    ∃ v, b.ackByte i = some v := by
  obtain ⟨v, hv⟩ := Option.isSome_iff_exists.1 (h.ackb_written i hi)
  exact ⟨v, Block.ackByte_eq_some.2 ⟨hi, hv⟩⟩

theorem Block.Inv.frameSum_exists (h : b.Inv bound) (hcnt : b.fbCnt.toNat = 32) : ∃ total, b.frameSum = some total := by
  obtain ⟨bytes, hbytes⟩ := Block.fbBytes_isSome (b := b) (a := 0) (n := 30) fun i _ hi =>
    Option.isSome_iff_exists.2 (h.fbByte_exists (by omega))
  exact ⟨sumBytes bytes, by simp only [Block.frameSum, hbytes]⟩

/-- An open channel port has its value (R140): the verdict stands on a whole frame. -/
theorem Block.Inv.chData_exists {i : BitVec 4} (h : b.Inv bound) (hopen : b.chValid i = true) :
    ∃ v, b.chData i = .ok v := by
  obtain ⟨hok, hi⟩ : b.ckOk = true ∧ i.toNat < 12 := by simpa [Block.chValid] using hopen
  obtain ⟨hcnt, _⟩ := h.verdict (h.ok_valid hok)
  obtain ⟨hi', hhi⟩ := h.fbByte_exists (i := 4 + 2 * i.toNat) (by omega)
  obtain ⟨lo, hlo⟩ := h.fbByte_exists (i := 4 + 2 * i.toNat + 1) (by omega)
  exact ⟨be16 hi' lo, by simp only [Block.chData, hopen, Block.fbHalf, hhi, hlo, if_true]⟩

theorem Block.chData_shut {i : BitVec 4} (hshut : b.chValid i = false) : b.chData i = .error .channelNotValid := by
  simp only [Block.chData, hshut, Bool.false_eq_true, if_false]

/-- With the invariant a channel has no value only where its port is shut (R141). -/
theorem Block.Inv.chData_error {i : BitVec 4} {f : Fault} (h : b.Inv bound) (hf : b.chData i = .error f) :
    f = .channelNotValid := by
  cases hopen : b.chValid i with
  | true =>
    obtain ⟨v, hv⟩ := h.chData_exists hopen
    simp [hv] at hf
  | false =>
    rw [Block.chData_shut hopen] at hf
    cases hf; rfl

/-- A record fails with the fault of one of its channels. -/
theorem Block.channels_error {i n : Nat} {f : Fault} (hf : b.channels i n = .error f) : ∃ j, b.chData j = .error f := by
  induction n generalizing i with
  | zero => simp [Block.channels] at hf
  | succ n ih =>
    simp only [Block.channels] at hf
    split at hf <;> cases hf
    · exact ⟨_, ‹_›⟩
    · exact ih ‹_›

/-! ### Every event answers -/

theorem State.Inv.opAct_answers (hs : s.Inv) (i : Instr) : ∃ t, opAct i s = .next t := by
  cases i
  case collect =>
    simp only [opAct, collectAct]
    split <;> exact ⟨_, rfl⟩
  case validate =>
    simp only [opAct, validateAct]
    split
    · rename_i hcnt
      have hcnt : s.block.fbCnt.toNat = 32 := congrArg BitVec.toNat hcnt
      obtain ⟨total, hsum⟩ := hs.block.frameSum_exists hcnt
      obtain ⟨ck, hck⟩ := hs.block.fbByte_exists (i := 31) (by omega)
      simp only [hsum, hck]
      split <;> exact ⟨_, rfl⟩
    · exact ⟨_, rfl⟩
  all_goals exact ⟨_, rfl⟩

theorem State.Inv.exec_answers (hs : s.Inv) (i : Instr) : ∃ t, exec i s = .next t := by
  rcases exec_cases i s with ⟨_, e⟩ | ⟨_, e⟩ | ⟨_, e⟩ | ⟨_, e⟩ | ⟨_, e⟩ <;> rw [e]
  · by_cases hst : s.block.st = .idle
    · rw [accept_of_idle _ hst]
      exact (hs.clearErr hst).opAct_answers i
    · exact ⟨s, accept_of_busy _ hst⟩
  all_goals exact ⟨_, rfl⟩

/-- In COLLECT and DRAIN the array has room for the byte (R28(d), (e)). -/
theorem Block.Inv.rxByte_answers (h : b.Inv bound) (v : Byte) : ∃ b', b.rxByte bound v = .ok b' := by
  cases hst : b.st <;> simp only [Block.rxByte, hst]
  case collect =>
    have hroom : b.fbCnt.toNat < 32 := by have := h.collecting hst; omega
    simp only [Block.rxCollect, Block.storeFrameByte, hroom, if_true]
    exact ⟨_, rfl⟩
  case drain =>
    have hroom : b.ackCnt.toNat < 8 := by have := h.draining hst; omega
    simp only [Block.rxDrain, Block.storeAckByte, hroom, if_true]
    exact ⟨_, rfl⟩
  case idle | hunt | got42 => exact ⟨_, rfl⟩

/-- A byte that can be taken is taken, and RxByte happens with it (R44). -/
theorem takeByte_of_ready {v : Byte} {rest : List Byte} {b' : Block} (hrx : s.rx = v :: rest)
    (hready : s.block.rxReady = true) (hb : s.block.rxByte s.syncMax v = .ok b') :
    takeByte s = .next { s with block := b', rx := rest } := by
  simp only [takeByte, hrx, hready, hb, if_true]

theorem takeByte_of_not_ready (h : s.rx = [] ∨ s.block.rxReady = false) : takeByte s = .next s := by
  unfold takeByte
  split
  · rfl
  · rename_i hrx
    have hready : s.block.rxReady = false := by simpa [hrx] using h
    simp [hready]

theorem State.Inv.takeByte_answers (hs : s.Inv) : ∃ t, takeByte s = .next t := by
  cases hrx : s.rx with
  | nil => exact ⟨s, takeByte_of_not_ready (.inl hrx)⟩
  | cons v rest =>
    cases hready : s.block.rxReady with
    | false => exact ⟨s, takeByte_of_not_ready (.inr hready)⟩
    | true =>
      obtain ⟨b', hb⟩ := hs.block.rxByte_answers v
      exact ⟨_, takeByte_of_ready hrx hready hb⟩

end Sys2Proof.Machine
end

section
/-! Where a fault can come from: an event, or the host's return of a record. -/

namespace Sys2Proof.Machine

variable {s u : State} {f : Fault}

/-- The sources of a fault: one event in a state with the same unit, or the record the host is to return. -/
inductive FaultSource (s : State) (f : Fault) : Prop where
  | instr (i : Instr) (u : State) (hu : SameUnit s u) (h : exec i u = .fault f)
  | byte (u : State) (hu : SameUnit s u) (h : takeByte u = .fault f)
  | record (rest : List Line) (hscript : s.script = .ret :: rest) (h : s.block.record = .error f)

theorem FaultSource.after (hf : FaultSource u f) (hu : SameUnit s u) (hscript : u.script = s.script) :
    FaultSource s f := by
  cases hf with
  | instr i w hw h => exact .instr i w (hu.trans hw) h
  | byte w hw h => exact .byte w (hu.trans hw) h
  | record rest hs h => exact .record rest (hscript ▸ hs) (hu.block ▸ h)

theorem runWord_fault {c : Channel} {bytes : List Byte} (h : runWord c bytes s = .fault f) :
    ∃ i, exec i s = .fault f := by
  unfold runWord at h
  split at h
  · exact ⟨_, h⟩
  · cases h

/-- A line of the host faults with the instruction it issues, or returning a record. -/
theorem runLine_fault {l : Line} {wait : State} (h : runLine l wait s = .fault f) :
    (∃ i, exec i s = .fault f) ∨ (l = .ret ∧ s.block.record = .error f) := by
  cases l <;> simp only [runLine, reduceCtorEq] at h
  case issue code =>
    split at h
    · exact .inl (runWord_fault h)
    · cases h
  case await => split at h <;> cases h
  case abort => exact .inl (runWord_fault h)
  case reset =>
    split at h
    · exact .inl (runWord_fault h)
    · cases h
  case check =>
    split at h
    · split at h <;> cases h
    · cases h
  case ret =>
    split at h <;> cases h
    exact .inr ⟨rfl, ‹_›⟩

theorem FaultSource.of_hostMove (h : hostMove s = .fault f) : FaultSource s f := by
  unfold hostMove at h
  split at h
  · cases h
  · rename_i l rest hscript
    rcases runLine_fault h with ⟨i, hi⟩ | ⟨rfl, hrec⟩
    · exact .instr i { s with script := rest } ⟨rfl, rfl, rfl⟩ hi
    · exact .record rest hscript hrec

theorem FaultSource.of_runWord {c : Channel} {bytes : List Byte} (h : runWord c bytes s = .fault f) :
    FaultSource s f :=
  let ⟨i, h⟩ := runWord_fault h
  .instr i s (.refl s) h

theorem FaultSource.of_runTurn {turn : Turn} (h : runTurn turn s = .fault f) : FaultSource s f := by
  cases turn <;> simp only [runTurn, reduceCtorEq] at h
  case present c bytes => exact .of_runWord h
  case take => exact .byte s (.refl s) h
  case carry =>
    unfold carryFrame at h
    split at h
    · cases h
    · exact .of_runWord h
  case host => exact .of_hostMove h

theorem FaultSource.of_step (h : step s = .fault f) : FaultSource s f := by
  unfold step advance at h
  split at h
  · exact (FaultSource.of_runTurn h).after ⟨rfl, rfl, rfl⟩ rfl
  · split at h
    · exact .byte s (.refl s) h
    · exact .of_hostMove h

/-- Settles O50: with the invariant no event faults, and a record only for a channel that is shut. -/
theorem invariantExcludesFaults : Obligations.InvariantExcludesFaults := by
  refine fun s hs => ⟨hs.exec_answers, hs.takeByte_answers, fun f hf => ?_⟩
  cases FaultSource.of_step hf with
  | instr i u hu h =>
    obtain ⟨t, ht⟩ := (hs.of_sameUnit hu).exec_answers i
    simp [ht] at h
  | byte u hu h =>
    obtain ⟨t, ht⟩ := (hs.of_sameUnit hu).takeByte_answers
    simp [ht] at h
  | record rest hscript h =>
    obtain ⟨j, hj⟩ := Block.channels_error h
    exact ⟨hs.block.chData_error hj, rest, hscript⟩

end Sys2Proof.Machine
end

section
/-! Runs keep what every step keeps; R28 of every state that a run from Reset reaches. -/

namespace Sys2Proof.Machine

variable {bound : ScanBound} {b : Block} {s t : State}

/-- What every step keeps holds along every run. -/
theorem run_keeps {P : State → Prop} (hstep : ∀ s t, P s → step s = .next t → P t) {n : Nat} (hs : P s)
    (h : Sys2Proof.core.run n s = .next t) : P t := by
  induction n generalizing s with
  | zero => cases h; exact hs
  | succ n ih =>
    simp only [Host.Core.run] at h
    split at h
    · exact ih (hstep _ _ hs ‹_›) h
    · cases h
    · cases h

theorem sumMatches_iff {total : Half} {ck : Byte} : sumMatches total ck = true ↔ total.toNat % 256 = ck.toNat := by
  simp only [sumMatches, beq_iff_eq, ← BitVec.toNat_inj, loByte, BitVec.extractLsb'_toNat, Nat.shiftRight_zero,
    Nat.reducePow]

/-- R28(g): a good verdict is that of the exact sum of the frame in FB. -/
theorem Block.Inv.good_verdict (h : b.Inv bound) (hok : b.ckOk = true) :
    b.ckValid = true ∧ b.fbCnt.toNat = 32 ∧
      ∃ (bytes : List Byte) (ck : Byte), b.fbBytes 0 30 = some bytes ∧ b.fbByte 31 = some ck ∧
        b.sum.toNat = natSum bytes ∧ b.sum.toNat % 256 = ck.toNat := by
  have hval := h.ok_valid hok
  obtain ⟨hcnt, total, ck, htotal, hck, rfl, hmatch⟩ := h.verdict hval
  refine ⟨hval, hcnt, ?_⟩
  unfold Block.frameSum at htotal
  split at htotal
  · rename_i bytes hbytes
    obtain ⟨hexact, _⟩ := sumBytes_toNat bytes (by rw [Block.fbBytes_length hbytes]; decide)
    have hsum : b.sum = sumBytes bytes := (Option.some.inj htotal).symm
    exact ⟨bytes, ck, hbytes, Block.fbByte_eq_some.2 ⟨by omega, hck⟩, hsum ▸ hexact,
      sumMatches_iff.1 (hmatch.symm.trans hok)⟩
  · cases htotal

/-- Settles O49: R28 holds after Reset whatever script and turns are loaded, and along every run from there. -/
theorem reachableStatesKeepR28 : Obligations.ReachableStatesKeepR28 := by
  intro bound rx script turns n t h
  have hstart : State.Inv { State.resetWith bound rx with script := script, turns := turns } :=
    ⟨Block.reset_inv bound, .nil⟩
  have hinv := (run_keeps stepKeepsInvariant hstart h).block
  refine ⟨hinv.fbCnt_legal, hinv.scanning, hinv.collecting, hinv.draining, fun h2 => ?_, hinv.good_verdict,
    fun hval => (hinv.verdict hval).1, hinv.busy_err⟩
  obtain ⟨h0, h1⟩ := hinv.marker h2
  exact ⟨Block.fbByte_eq_some.2 ⟨by omega, h0⟩, Block.fbByte_eq_some.2 ⟨by omega, h1⟩⟩

end Sys2Proof.Machine
end

section
/-! The read ports (R24): when each answers and what it returns. -/

namespace Sys2Proof.Machine

variable {b : Block}

/-- `be16` as a number (R80). -/
theorem be16_toNat (hi lo : Byte) : (be16 hi lo).toNat = 256 * hi.toNat + lo.toNat := by
  unfold be16
  bv_omega

theorem Block.fbHalf_eq_some {a : Nat} {v : Half} :
    b.fbHalf a = some v ↔ ∃ hi lo, b.fbByte a = some hi ∧ b.fbByte (a + 1) = some lo ∧ be16 hi lo = v := by
  unfold Block.fbHalf
  cases b.fbByte a <;> cases b.fbByte (a + 1) <;> simp

/-- What a byte port answers for a byte: its value, or the fault of a byte without one (U9). -/
def portByte : Option Byte → Except Fault Byte
  | some v => .ok v
  | none => .error .byteNotValid

theorem portByte_eq_ok {o : Option Byte} {v : Byte} : portByte o = .ok v ↔ o = some v := by
  cases o <;> simp [portByte]

/-- The FB port returns the valid byte at its selector. -/
theorem Block.portRead_fb {a : BitVec 5} {v : Byte} : b.portRead (.fb a) = .ok v ↔ b.fbByte a.toNat = some v :=
  portByte_eq_ok

/-- The ACKB port returns the valid byte at its selector. -/
theorem Block.portRead_ackb {a : BitVec 3} {v : Byte} :
    b.portRead (.ackb a) = .ok v ↔ b.ackByte a.toNat = some v :=
  portByte_eq_ok

/-- The channel port returns the big-endian pair of its channel, when it is open (R140). -/
theorem Block.chData_eq_ok {i : BitVec 4} {v : Half} :
    b.chData i = .ok v ↔ b.chValid i = true ∧ b.fbHalf (4 + 2 * i.toNat) = some v := by
  cases hopen : b.chValid i <;> cases hhalf : b.fbHalf (4 + 2 * i.toNat) <;> simp [Block.chData, hopen, hhalf]

theorem Block.lt_of_chValid {i : BitVec 4} (h : b.chValid i = true) : i.toNat < 12 := by
  simp only [Block.chValid, Bool.and_eq_true, decide_eq_true_eq] at h
  exact h.2

/-- Settles O36: what is valid has been written, and nothing else is returned. -/
theorem portsAnswerExactlyWhenValid : Obligations.PortsAnswerExactlyWhenValid := by
  intro bound b h p
  cases p with
  | status => exact iff_of_true ⟨_, rfl⟩ rfl
  | sum => exact iff_of_true ⟨_, rfl⟩ rfl
  | scanCnt => exact iff_of_true ⟨_, rfl⟩ rfl
  | fbCnt => exact iff_of_true ⟨_, rfl⟩ rfl
  | fb a =>
    refine (exists_congr fun _ => Block.portRead_fb).trans ⟨fun ⟨_, hv⟩ => ?_, fun ha => ?_⟩
    · exact decide_eq_true (Block.fbByte_eq_some.1 hv).1
    · exact h.fbByte_exists (of_decide_eq_true ha)
  | ch i => exact ⟨fun ⟨_, hv⟩ => (Block.chData_eq_ok.1 hv).1, h.chData_exists⟩
  | ackb a =>
    refine (exists_congr fun _ => Block.portRead_ackb).trans ⟨fun ⟨_, hv⟩ => ?_, fun ha => ?_⟩
    · exact decide_eq_true (Block.ackByte_eq_some.1 hv).1
    · exact h.ackByte_exists (of_decide_eq_true ha)

/-- Settles O58: port by port; a channel's two offsets are within the reach of the FB port's selector. -/
theorem portsReturnTheirItems : Obligations.PortsReturnTheirItems := by
  refine fun b => ⟨rfl, rfl, rfl, rfl, fun a v => Block.portRead_fb.trans Block.fbByte_eq_some,
    fun a v => Block.portRead_ackb.trans Block.ackByte_eq_some, fun i v hv => ?_⟩
  obtain ⟨hopen, hhalf⟩ := Block.chData_eq_ok.1 hv
  obtain ⟨hi, lo, hhi, hlo, rfl⟩ := Block.fbHalf_eq_some.1 hhalf
  have hlt := Block.lt_of_chValid hopen
  have hsel : ∀ k, k ≤ 5 → (BitVec.ofNat 5 (k + 2 * i.toNat)).toNat = k + 2 * i.toNat := fun k hk => by
    rw [BitVec.toNat_ofNat]; omega
  refine ⟨hi, lo, Block.portRead_fb.2 ?_, Block.portRead_fb.2 ?_, be16_toNat hi lo⟩
  · rw [hsel 4 (by decide)]; exact hhi
  · rw [hsel 5 (by decide), show 5 + 2 * i.toNat = 4 + 2 * i.toNat + 1 by omega]; exact hlo

end Sys2Proof.Machine
end

section
/-! The STATUS word as a number (R23). -/

namespace Sys2Proof.Machine

/-- Concatenated bits as a number: the low part stands below the high part. -/
theorem toNat_append_add {m n : Nat} (x : BitVec m) (y : BitVec n) :
    (x ++ y).toNat = 2 ^ n * x.toNat + y.toNat := by
  rw [BitVec.toNat_append, ← Nat.shiftLeft_add_eq_or_of_lt y.isLt, Nat.shiftLeft_eq, Nat.mul_comm]

theorem Block.busy_toNat (b : Block) : b.busy.toNat = if b.st = .idle then 0 else 1 := by
  cases h : b.st <;> simp [Block.busy, h]

theorem Block.synced_toNat (b : Block) : b.synced.toNat = if 2 ≤ b.fbCnt.toNat then 1 else 0 := by
  unfold Block.synced; split <;> simp_all

theorem Block.full_toNat (b : Block) : b.full.toNat = if b.fbCnt.toNat = 32 then 1 else 0 := by
  unfold Block.full; split <;> simp_all

/-- Each field of STATUS stands above the fields behind it. -/
theorem Block.status_toNat (b : Block) :
    b.status.toNat = b.busy.toNat + 2 * b.synced.toNat + 4 * b.full.toNat + 8 * b.ckValid.toNat
      + 16 * b.st.code.toNat + 128 * b.ckOk.toNat + 256 * b.err.code.toNat + 1024 * b.ackCnt.toNat := by
  simp only [Block.status, toNat_append_add, BitVec.toNat_ofBool, BitVec.toNat_ofNat]
  omega

/-- Settles O34: the fields at their places, each with its codes. -/
theorem statusWordFields : Obligations.StatusWordFields := by
  intro b
  rw [b.status_toNat, b.busy_toNat, b.synced_toNat, b.full_toNat]
  cases b.st <;> cases b.err <;> rfl

end Sys2Proof.Machine
end

section
/-! The counters' writers (R10), and that the ten items alone decide what an event does to them. -/

namespace Sys2Proof.Machine

variable {s t : State}

/-- No instruction but its named writers changes SUM or a counter. -/
theorem exec_keeps_counters {i : Instr} (h : exec i s = .next t) (hr : i ≠ .reset) :
    (i ≠ .validate → t.block.sum = s.block.sum) ∧ (i ≠ .sync → t.block.scanCnt = s.block.scanCnt) ∧
      (i ≠ .drain → t.block.ackCnt = s.block.ackCnt) ∧
      (i ≠ .sync → i ≠ .abort → t.block.fbCnt = s.block.fbCnt) := by
  rcases exec_cases i s with ⟨hc, e⟩ | ⟨rfl, e⟩ | ⟨rfl, e⟩ | ⟨hc, e⟩ | ⟨hc, e⟩ <;> rw [e] at h
  · rcases accept_cases h with ⟨_, hact⟩ | ⟨_, rfl⟩
    · obtain ⟨-, -, -, -, -, -, -, -, -, -, hsum, hscan, hack, hfb, -⟩ := opAct_frame hc hact
      exact ⟨hsum, hscan, hack, fun hsync _ => hfb hsync⟩
    · simp
  · cases h
    cases hst : s.block.st <;> simp [Block.abort, hst]
  · exact absurd rfl hr
  all_goals cases h; simp

/-- The bound's test ends a scan and writes no counter (R105). -/
theorem Block.checkBound_counters (bound : ScanBound) (b : Block) :
    (b.checkBound bound).sum = b.sum ∧ (b.checkBound bound).ackCnt = b.ackCnt ∧
      (b.checkBound bound).fbCnt = b.fbCnt := by
  rcases Block.checkBound_cases bound b with ⟨_, _, e⟩ | ⟨_, e⟩ <;> simp [e]

/-- Settles O38: by what each instruction, and each RxByte, leaves unchanged. -/
theorem countersHaveNamedWriters : Obligations.CountersHaveNamedWriters := by
  refine ⟨fun i s t h => ?_, fun s t h => ?_⟩
  · by_cases hr : i = .reset
    · simp [hr]
    · obtain ⟨hsum, hscan, hack, hfb⟩ := exec_keeps_counters h hr
      refine ⟨fun hne => .inl ?_, fun hne => .inl ?_, fun hne => .inl ?_, fun hne => ?_⟩
      · exact not_imp_comm.1 hsum hne
      · exact not_imp_comm.1 hscan hne
      · exact not_imp_comm.1 hack hne
      · by_cases hsync : i = .sync
        · exact .inl hsync
        · exact .inr (.inl (not_imp_comm.1 (hfb hsync) hne))
  · rcases takeByte_cases h with ⟨_, rfl⟩ | ⟨v, rest, b, _, _, hb, rfl⟩
    · simp
    · rcases Block.rxByte_cases hb with ⟨_, rfl⟩ | ⟨hst, rfl⟩ | ⟨hst, _, rfl⟩ | ⟨hst, _, rfl⟩ | ⟨hst, _, rfl⟩
      · simp
      · obtain ⟨hsum, hack, hfb⟩ := Block.checkBound_counters s.syncMax
          (s.block.countByte.goto (if v = Config.marker0 then .got42 else .hunt))
        exact ⟨hsum, fun _ => hst.imp_right And.left, fun hne => absurd hack hne, fun hne => absurd hfb hne⟩
      all_goals simp [hst]

/-- Settles O41: an operation is a function of the block, a strobe writes the block alone, the wire formats do not touch
it, and a byte is taken by the block and the bound alone. -/
theorem tenItemsDetermineTheBlock : Obligations.TenItemsDetermineTheBlock := by
  refine ⟨fun i s t s' hblock h => ?_, fun s t s' v r r' hblock hmax hs ht h => ?_⟩
  · rcases exec_cases i s with ⟨hc, e⟩ | ⟨rfl, e⟩ | ⟨rfl, e⟩ | ⟨hc, e⟩ | ⟨hc, e⟩
    · obtain ⟨b, pushed, hlocal⟩ := exec_op_local hc h
      rw [hlocal s rfl] at h
      cases h
      exact ⟨_, hlocal t hblock.symm, rfl, fun _ => ⟨pushed, rfl, rfl⟩⟩
    · cases h
      exact ⟨_, rfl, congrArg Block.abort hblock.symm, fun _ => ⟨[], by simp⟩⟩
    · cases h
      exact ⟨_, rfl, rfl, fun _ => ⟨[], by simp⟩⟩
    · rw [e] at h
      cases h
      exact ⟨_, exec_cmd hc t, by simp [hblock], fun hne => absurd hc hne⟩
    · rw [e] at h
      cases h
      exact ⟨_, exec_arrival hc t, hblock.symm, fun _ => ⟨[], by simp⟩⟩
  · rcases takeByte_cases h with ⟨hnone, rfl⟩ | ⟨v', rest, b, hrx, hready, hb, rfl⟩
    · have hready : s'.block.rxReady = false := by simpa [hs] using hnone
      exact ⟨t, takeByte_of_not_ready (.inr (hblock ▸ hready)), hblock.symm, rfl, rfl⟩
    · obtain ⟨rfl, rfl⟩ := List.cons.inj (hs.symm.trans hrx)
      rw [hblock] at hready
      rw [hblock, hmax] at hb
      exact ⟨_, takeByte_of_ready ht hready hb, rfl, rfl, rfl⟩

end Sys2Proof.Machine
end

section
/-! FB and ACKB are written by RxByte alone (R48), so in IDLE and DRAIN a frame stands until SYNC or Reset takes it. -/

namespace Sys2Proof.Machine

variable {s t : State} {b b' : Block}

/-- No instruction but Reset writes a cell of an array (R48). -/
theorem exec_keeps_arrays {i : Instr} (h : exec i s = .next t) (hr : i ≠ .reset) :
    t.block.fb = s.block.fb ∧ t.block.ackb = s.block.ackb := by
  rcases exec_cases i s with ⟨hc, e⟩ | ⟨rfl, e⟩ | ⟨rfl, e⟩ | ⟨hc, e⟩ | ⟨hc, e⟩ <;> rw [e] at h
  · rcases accept_cases h with ⟨_, hact⟩ | ⟨_, rfl⟩
    · obtain ⟨-, -, -, -, -, -, -, -, hfb, hackb, -⟩ := opAct_frame hc hact
      exact ⟨hfb, hackb⟩
    · exact ⟨rfl, rfl⟩
  · cases h
    cases hst : s.block.st <;> simp [Block.abort, hst]
  · exact absurd rfl hr
  all_goals cases h; simp

/-! The bound's test writes no cell of an array (R105). -/

@[simp] theorem Block.checkBound_fb (bound : ScanBound) (b : Block) : (b.checkBound bound).fb = b.fb := by
  rcases Block.checkBound_cases bound b with ⟨_, _, e⟩ | ⟨_, e⟩ <;> simp [e]

@[simp] theorem Block.checkBound_ackb (bound : ScanBound) (b : Block) : (b.checkBound bound).ackb = b.ackb := by
  rcases Block.checkBound_cases bound b with ⟨_, _, e⟩ | ⟨_, e⟩ <;> simp [e]

/-- The cells RxByte may write: the marker's in GOT42 (R104), the next one of FB in COLLECT (R108), the next one of ACKB
in DRAIN (R113). -/
theorem Block.rxByte_writes {bound : ScanBound} {v : Byte} (h : b.rxByte bound v = .ok b') (a : Nat) :
    (b'.fb.read a ≠ b.fb.read a →
      (b.st = .got42 ∧ (a = 0 ∨ a = 1)) ∨ (b.st = .collect ∧ a = b.fbCnt.toNat)) ∧
    (b'.ackb.read a ≠ b.ackb.read a → b.st = .drain ∧ a = b.ackCnt.toNat) := by
  rcases Block.rxByte_cases h with ⟨_, rfl⟩ | ⟨_, rfl⟩ | ⟨hst, _, rfl⟩ | ⟨hst, _, rfl⟩ | ⟨hst, _, rfl⟩
  · simp
  · simp
  · refine ⟨fun hne => .inl ⟨hst, ?_⟩, by simp⟩
    by_contra hout
    obtain ⟨h0, h1⟩ := not_or.1 hout
    exact hne (by simp [Memory.read_write, h0, h1])
  · exact ⟨fun hne => .inr ⟨hst, not_imp_comm.1 (Memory.read_write_other _ _ _) hne⟩, by simp⟩
  · exact ⟨by simp, fun hne => ⟨hst, not_imp_comm.1 (Memory.read_write_other _ _ _) hne⟩⟩

/-- A byte of FB reads the same where its cell and `fb_cnt` are the same (R17). -/
theorem Block.fbByte_congr {a : Nat} (hfb : b'.fb.read a = b.fb.read a) (hcnt : b'.fbCnt = b.fbCnt) :
    b'.fbByte a = b.fbByte a := by
  simp only [Block.fbByte, hfb, hcnt]

/-- Outside a scan and COLLECT an Abort drops no frame (R170, R171). -/
theorem Block.abort_fbCnt (hst : b.st = .idle ∨ b.st = .drain) : b.abort.fbCnt = b.fbCnt := by
  rcases hst with hst | hst <;> simp [Block.abort, hst]

/-- In IDLE and DRAIN only SYNC and Reset change `fb_cnt`. -/
theorem exec_keeps_fbCnt {i : Instr} (hst : s.block.st = .idle ∨ s.block.st = .drain) (hsync : i ≠ .sync)
    (hr : i ≠ .reset) (h : exec i s = .next t) : t.block.fbCnt = s.block.fbCnt := by
  by_cases habort : i = .abort
  · subst habort
    cases h
    exact Block.abort_fbCnt hst
  · obtain ⟨-, -, -, hcnt⟩ := exec_keeps_counters h hr
    exact hcnt hsync habort

/-- The cells a taking of a byte may write: those RxByte writes. -/
theorem takeByte_writes (h : takeByte s = .next t) (a : Nat) :
    (t.block.fb.read a ≠ s.block.fb.read a →
      (s.block.st = .got42 ∧ (a = 0 ∨ a = 1)) ∨ (s.block.st = .collect ∧ a = s.block.fbCnt.toNat)) ∧
    (t.block.ackb.read a ≠ s.block.ackb.read a → s.block.st = .drain ∧ a = s.block.ackCnt.toNat) := by
  rcases takeByte_cases h with ⟨_, rfl⟩ | ⟨_, _, _, _, _, hb, rfl⟩
  · simp
  · exact Block.rxByte_writes hb a

/-- In IDLE and DRAIN a byte taken leaves every byte of FB as it reads. -/
theorem takeByte_keeps_fbByte (h : takeByte s = .next t) (hst : s.block.st = .idle ∨ s.block.st = .drain) (a : Nat) :
    t.block.fbByte a = s.block.fbByte a := by
  obtain ⟨hwrites, -⟩ := takeByte_writes h a
  obtain ⟨-, -, -, hcnt⟩ := countersHaveNamedWriters.2 s t h
  apply Block.fbByte_congr
  · by_contra hne
    rcases hwrites hne with ⟨hbusy, _⟩ | ⟨hbusy, _⟩ <;> simp [hbusy] at hst
  · by_contra hne
    rcases hcnt hne with hbusy | hbusy <;> simp [hbusy] at hst

/-- Settles O37: by the arrays' writers, and those of `fb_cnt`, on which the validity of a byte of FB rests. -/
theorem onlyRxByteWritesTheArrays : Obligations.OnlyRxByteWritesTheArrays := by
  refine ⟨fun i s t hr h => exec_keeps_arrays h hr, fun s t h a => ?_, fun i s t hst hsync hr h a => ?_⟩
  · obtain ⟨hfb, hackb⟩ := takeByte_writes h a
    exact ⟨hfb, hackb, fun hst => takeByte_keeps_fbByte h hst a⟩
  · obtain ⟨hfb, -⟩ := exec_keeps_arrays h hr
    exact Block.fbByte_congr (by rw [hfb]) (exec_keeps_fbCnt hst hsync hr h)

end Sys2Proof.Machine
end

section
/-! The streams (R44, R45) and what lies around the block: which events move a byte, and that nothing else does. -/

namespace Sys2Proof.Machine

variable {s t : State}

/-- What an operation word leaves alone outside the block, accepted or not (R160, R162, R174). -/
theorem exec_op_surroundings {i : Instr} (hc : i.channel = .op) (h : exec i s = .next t) :
    (t.syncMax = s.syncMax ∧ t.mode = s.mode ∧ t.linkOpen = s.linkOpen ∧ t.script = s.script ∧ t.turns = s.turns ∧
      t.report = s.report) ∧
    t.rx = s.rx ∧ (transmits i = false → t.tx = s.tx) := by
  rw [exec_op hc] at h
  rcases accept_cases h with ⟨_, hact⟩ | ⟨_, rfl⟩
  · obtain ⟨hmax, hmode, hlink, hscript, hturns, hreport, hrx, htx, -⟩ := opAct_frame hc hact
    exact ⟨⟨hmax, hmode, hlink, hscript, hturns, hreport⟩, hrx, htx⟩
  · simp

/-- Settles O40: an operation word by its frame, a strobe as it writes the block alone, a wire format as it moves one
stream alone. -/
theorem streamsAndHostFrame : Obligations.StreamsAndHostFrame := by
  intro i s t h
  rcases exec_cases i s with ⟨hc, _⟩ | ⟨rfl, e⟩ | ⟨rfl, e⟩ | ⟨hc, e⟩ | ⟨hc, e⟩
  · obtain ⟨hhost, hrx, htx⟩ := exec_op_surroundings hc h
    exact ⟨hhost, fun hquiet _ => htx hquiet, fun _ _ => hrx, by simp [hc]⟩
  · cases h
    simp [Instr.channel]
  · cases h
    simp [Instr.channel]
  · rw [e] at h
    cases h
    simp [hc]
  · rw [e] at h
    cases h
    exact ⟨by simp, by simp, fun hdata hack => absurd hc (not_or.2 ⟨hdata, hack⟩), by simp⟩

/-- Bytes that are the oldest of TX leave it, and nothing else changes (R45). -/
theorem State.txCarry_of_prefix {f rest : List Byte} (h : s.tx = f ++ rest) : s.txCarry f = { s with tx := rest } := by
  simp [State.txCarry, h]

theorem exec_cmd_of_head {i : Instr} {rest : List Byte} (hc : i.channel = .cmd) (h : s.tx = encode i ++ rest) :
    exec i s = .next { s with tx := rest } := by
  rw [exec_cmd hc, State.txCarry_of_prefix h]

/-- Settles O17: a wire command is its seven bytes' leaving TX, and nothing where they do not stand at its head. -/
theorem commandFramesLeaveTx : Obligations.CommandFramesLeaveTx :=
  fun s _ => ⟨exec_cmd_of_head (i := .cmdSleep) rfl, exec_cmd_of_head (i := .cmdWake) rfl,
    exec_cmd_of_head (i := .cmdSetModePassive) rfl, exec_cmd_of_head (i := .cmdSetModeActive) rfl,
    exec_cmd_of_head (i := .cmdRequestRead) rfl, fun _ hc hnot => by rw [exec_cmd hc, State.txCarry_of_not_prefix s _ hnot]⟩

/-- A value is its two bytes, the more significant counting 256 times (R81). -/
theorem hiByte_loByte_toNat (v : Half) : 256 * (hiByte v).toNat + (loByte v).toNat = v.toNat := by
  have hlt := v.isLt
  simp only [hiByte, loByte, BitVec.extractLsb'_toNat, Nat.shiftRight_eq_div_pow]
  omega

/-- The bytes of the value at `k` stand at `2k` and `2k + 1`, the more significant first (R43). -/
theorem splitUp_getD_toNat (vs : List Half) (k : Nat) :
    256 * ((splitUp vs).getD (2 * k) 0).toNat + ((splitUp vs).getD (2 * k + 1) 0).toNat = (vs.getD k 0).toNat := by
  induction vs generalizing k with
  | nil => rfl
  | cons v vs ih =>
    cases k with
    | zero => exact hiByte_loByte_toNat v
    | succ k => exact ih k

/-- Settles O18: the channels' bytes are `splitUp` of the twelve values. -/
theorem arrivingFramesStandInRx : Obligations.ArrivingFramesStandInRx := by
  refine fun s => ⟨fun lenH lenL c0 c1 c2 c3 c4 c5 c6 c7 c8 c9 c10 c11 rsvH rsvL ckH ckL => ?_,
    fun bytes => exec_arrival (.inr rfl) s⟩
  refine ⟨splitUp [c0, c1, c2, c3, c4, c5, c6, c7, c8, c9, c10, c11], ?_, ?_, fun k _ => splitUp_getD_toNat _ k⟩
  · rw [exec_arrival (.inl rfl)]
    simp [State.rxAppend, encode]
  · exact Laws.FixedLength.splitUp_length _

/-- Settles O24: in IDLE the block is not ready for a byte (R22), and of an empty RX there is none. -/
theorem noByteTakenWithoutRxReady : Obligations.NoByteTakenWithoutRxReady := by
  rintro s (hst | hrx)
  · exact takeByte_of_not_ready (.inr (by simp [Block.rxReady, hst]))
  · exact takeByte_of_not_ready (.inl hrx)

end Sys2Proof.Machine
end

section
/-! The words of the table: the big-endian values of R80 and R81, the operation byte of R84, the whole data frame of R71,
and from them the two directions of the round trip. -/

namespace Sys2Proof

open Machine

variable {bs : List Byte} {i : Instr}

/-! ### Values and their bytes (R80, R81) -/

theorem be16_hiByte_loByte (v : Half) : be16 (hiByte v) (loByte v) = v :=
  BitVec.eq_of_toNat_eq ((be16_toNat _ _).trans (hiByte_loByte_toNat v))

theorem hiByte_loByte_be16 (hi lo : Byte) : hiByte (be16 hi lo) = hi ∧ loByte (be16 hi lo) = lo := by
  have hv := (hiByte_loByte_toNat (be16 hi lo)).trans (be16_toNat hi lo)
  constructor <;> apply BitVec.eq_of_toNat_eq <;> omega

theorem pairUp_splitUp (vs : List Half) : pairUp (splitUp vs) = vs := by
  induction vs with
  | nil => rfl
  | cons v vs ih => rw [splitUp, pairUp, be16_hiByte_loByte, ih]

/-- Every run of `2 * n` bytes is the writing of `n` values. -/
theorem exists_splitUp_eq (n : Nat) (h : bs.length = 2 * n) : ∃ vs : List Half, vs.length = n ∧ splitUp vs = bs := by
  induction n generalizing bs with
  | zero => exact ⟨[], rfl, (List.length_eq_zero_iff.1 h).symm⟩
  | succ n ih =>
    match bs, h with
    | hi :: lo :: rest, h =>
      obtain ⟨vs, hlen, hsplit⟩ := ih (bs := rest) (by simpa [Nat.mul_succ] using h)
      obtain ⟨hhi, hlo⟩ := hiByte_loByte_be16 hi lo
      exact ⟨be16 hi lo :: vs, by simp [hlen], by rw [splitUp, hhi, hlo, hsplit]⟩

/-! ### Operation words (R83, R84) -/

/-- Each of the sixteen codes is the encoding of its own instruction. -/
theorem encode_decodeOp (code : BitVec 4) :
    (decodeOp code).wellFormed = true ∧ (decodeOp code).channel = .op ∧
      encode (decodeOp code) = [code.setWidth 8] := by
  revert code
  decide

theorem encode_of_decodeOpBytes (h : decodeOpBytes bs = .ok i) :
    i.wellFormed = true ∧ i.channel = .op ∧ encode i = bs := by
  unfold decodeOpBytes at h
  split at h
  · next b =>
    split at h
    · next hlt =>
      cases h
      have hback : (b.setWidth 4).setWidth 8 = b := by bv_omega
      simpa only [hback] using encode_decodeOp (b.setWidth 4)
    · cases h
  · cases h

theorem decodeOpBytes_of_length_ne (h : bs.length ≠ 1) : decodeOpBytes bs = .error .wrongLength := by
  unfold decodeOpBytes
  split
  · exact absurd rfl h
  · rfl

/-! ### Strobes and command frames (R78, R84) -/

theorem decodeStrobe_eq_ok {strobe : Instr} (h : decodeStrobe strobe bs = .ok i) : i = strobe ∧ bs = [] := by
  cases bs with
  | nil => cases h; exact ⟨rfl, rfl⟩
  | cons b rest => cases h

theorem decodeStrobe_of_ne_nil (strobe : Instr) (h : bs ≠ []) : decodeStrobe strobe bs = .error .wrongLength := by
  cases bs with
  | nil => exact absurd rfl h
  | cons b rest => rfl

theorem length_of_mem_commandFrames : ∀ f ∈ commandFrames, f.length = 7 := by decide

/-- Seven bytes that are none of the five frames, or not seven bytes (R82(c)). -/
theorem decodeCmd_of_not_mem (h : bs ∉ commandFrames) :
    decodeCmd bs = .error (if bs.length = 7 then .unknownCommand else .wrongLength) := by
  simp only [commandFrames, List.mem_cons, List.not_mem_nil, or_false, not_or] at h
  obtain ⟨hsleep, hwake, hpassive, hactive, hread⟩ := h
  simp only [decodeCmd, if_neg hsleep, if_neg hwake, if_neg hpassive, if_neg hactive, if_neg hread]
  split <;> rfl

theorem encode_of_decodeCmd (h : decodeCmd bs = .ok i) : i.wellFormed = true ∧ i.channel = .cmd ∧ encode i = bs := by
  by_cases hmem : bs ∈ commandFrames
  · simp only [commandFrames, List.mem_cons, List.not_mem_nil, or_false] at hmem
    rcases hmem with rfl | rfl | rfl | rfl | rfl <;> cases h <;> exact ⟨rfl, rfl, rfl⟩
  · rw [decodeCmd_of_not_mem hmem] at h
    cases h

/-! ### Data frames (R71) -/

/-- Any 32 bytes have the shape of a data frame; only the first two need not be the marker. -/
theorem exists_dataFrame_shape (h : bs.length = 32) :
    ∃ m0 m1 lenH lenL chans rsvH rsvL ckH ckL, chans.length = 12 ∧
      bs = m0 :: m1 :: lenH :: lenL :: (splitUp chans ++ [rsvH, rsvL, ckH, ckL]) := by
  match bs, h with
  | m0 :: m1 :: lenH :: lenL :: rest, h =>
    have hrest : rest.length = 28 := by simpa using h
    obtain ⟨chans, hchans, hsplit⟩ := exists_splitUp_eq (bs := rest.take 24) 12 (by simp [hrest])
    obtain ⟨rsvH, rsvL, ckH, ckL, htail⟩ := List.length_eq_four.1 (show (rest.drop 24).length = 4 by simp [hrest])
    refine ⟨m0, m1, lenH, lenL, chans, rsvH, rsvL, ckH, ckL, hchans, ?_⟩
    rw [hsplit, ← htail, List.take_append_drop]

theorem decodeData_of_shape {chans : List Half} (h : chans.length = 12) (m0 m1 lenH lenL rsvH rsvL ckH ckL : Byte) :
    decodeData (m0 :: m1 :: lenH :: lenL :: (splitUp chans ++ [rsvH, rsvL, ckH, ckL])) =
      if m0 = Config.marker0 ∧ m1 = Config.marker1 then .ok (.dataFrame lenH lenL chans rsvH rsvL ckH ckL)
      else .error .noMarker := by
  have hlen : (splitUp chans).length = 2 * Config.nChannels := by rw [Laws.FixedLength.splitUp_length, h]
  simp only [decodeData, List.drop_left' hlen, List.take_left' hlen, pairUp_splitUp]

theorem decodeData_of_length_ne (h : bs.length ≠ 32) : decodeData bs = .error .wrongLength := by
  unfold decodeData
  split
  · next rest =>
    split
    · next htail =>
      have hlen := congrArg List.length htail
      simp only [List.length_drop, List.length_cons, List.length_nil, Config.nChannels] at h hlen
      omega
    · rfl
  · rfl

theorem encode_of_decodeData (h : decodeData bs = .ok i) :
    i.wellFormed = true ∧ i.channel = .data ∧ encode i = bs := by
  by_cases hlen : bs.length = 32
  · obtain ⟨m0, m1, lenH, lenL, chans, rsvH, rsvL, ckH, ckL, hchans, rfl⟩ := exists_dataFrame_shape hlen
    rw [decodeData_of_shape hchans] at h
    split at h
    · next hmarker =>
      obtain ⟨rfl, rfl⟩ := hmarker
      cases h
      exact ⟨beq_iff_eq.2 hchans, rfl, rfl⟩
    · cases h
  · rw [decodeData_of_length_ne hlen] at h
    cases h

/-- Bytes without the marker at their head (R71). -/
theorem decodeData_of_no_marker (hlen : bs.length = 32) (hmarker : bs.take 2 ≠ [0x42, 0x4D]) :
    decodeData bs = .error .noMarker := by
  obtain ⟨m0, m1, lenH, lenL, chans, rsvH, rsvL, ckH, ckL, hchans, rfl⟩ := exists_dataFrame_shape hlen
  rw [decodeData_of_shape hchans, if_neg]
  rintro ⟨rfl, rfl⟩
  exact hmarker rfl

/-! ### Acknowledgments (R79) -/

theorem decodeAck_of_length (h : bs.length = 8) : decodeAck bs = .ok (.ack bs) := if_pos h

theorem decodeAck_of_length_ne (h : bs.length ≠ 8) : decodeAck bs = .error .wrongLength := if_neg h

theorem encode_of_decodeAck (h : decodeAck bs = .ok i) : i.wellFormed = true ∧ i.channel = .ack ∧ encode i = bs := by
  by_cases hlen : bs.length = 8
  · rw [decodeAck_of_length hlen] at h
    cases h
    exact ⟨beq_iff_eq.2 hlen, rfl, rfl⟩
  · rw [decodeAck_of_length_ne hlen] at h
    cases h

/-! ### The statements -/

/-- Settles O1: the rows without operands are closed words; a data frame's values come back from their bytes, and an
acknowledgment is its own bytes. -/
theorem decodeOfEncode : Obligations.DecodeOfEncode := by
  intro i hwf
  cases i with
  | dataFrame lenH lenL chans rsvH rsvL ckH ckL =>
    exact (decodeData_of_shape (beq_iff_eq.1 hwf) ..).trans (if_pos ⟨rfl, rfl⟩)
  | ack bytes => exact decodeAck_of_length (beq_iff_eq.1 hwf)
  | _ => rfl

/-- Settles O2: channel by channel, what the channel's decoder accepts. -/
theorem encodeOfDecode : Obligations.EncodeOfDecode := by
  intro c bs i h
  cases c with
  | op => exact encode_of_decodeOpBytes h
  | abort => obtain ⟨rfl, rfl⟩ := decodeStrobe_eq_ok h; exact ⟨rfl, rfl, rfl⟩
  | reset => obtain ⟨rfl, rfl⟩ := decodeStrobe_eq_ok h; exact ⟨rfl, rfl, rfl⟩
  | cmd => exact encode_of_decodeCmd h
  | data => exact encode_of_decodeData h
  | ack => exact encode_of_decodeAck h

/-- Settles O4: the rejection of each channel's decoder. -/
theorem decoderRejects : Obligations.DecoderRejects := by
  refine fun bs => ⟨decodeOpBytes_of_length_ne, ?notFourBits, ?cmdLength, ?unknownCommand, decodeData_of_length_ne,
    decodeData_of_no_marker, decodeAck_of_length_ne, fun h => ⟨decodeStrobe_of_ne_nil _ h, decodeStrobe_of_ne_nil _ h⟩⟩
  case notFourBits =>
    rintro b rfl hb
    exact if_neg (Nat.not_lt.2 hb)
  case cmdLength =>
    intro hlen
    exact (decodeCmd_of_not_mem (mt (length_of_mem_commandFrames bs) hlen)).trans (by rw [if_neg hlen])
  case unknownCommand =>
    intro hlen hmem
    exact (decodeCmd_of_not_mem hmem).trans (by rw [if_pos hlen])

/-- Settles O3: the written words, evaluated. -/
theorem specWordsDecode : Obligations.SpecWordsDecode := by
  unfold Obligations.SpecWordsDecode
  decide

end Sys2Proof
end

section
/-! Fetching: a step runs the instruction that the bits presented, the frame carried, the line issued or the table word
placed decode to (R83, R84, R86; log entry 4). -/

namespace Sys2Proof.Machine

variable {s : State} {c : Channel} {bs : List Byte} {i : Instr} {rest : List Turn} {nbits w : Nat}

theorem runWord_of_decode (h : decode c bs = .ok i) (s : State) : runWord c bs s = exec i s := by
  simp only [runWord, h]

theorem step_present (ht : s.turns = .present c bs :: rest) (h : decode c bs = .ok i) :
    step s = exec i { s with turns := rest } :=
  (step_turn ht).trans (runWord_of_decode h _)

theorem step_carry (ht : s.turns = .carry :: rest) (hlen : 7 ≤ s.tx.length) (h : decode .cmd (s.tx.take 7) = .ok i) :
    step s = exec i { s with turns := rest } :=
  calc step s = carryFrame { s with turns := rest } := step_turn ht
    _ = runWord .cmd (s.tx.take 7) { s with turns := rest } := if_neg (Nat.not_lt.2 hlen)
    _ = exec i { s with turns := rest } := runWord_of_decode h _

/-- Settles O5: bits presented, a frame carried, a line issued. -/
theorem stepRunsDecodedInstruction : Obligations.StepRunsDecodedInstruction :=
  ⟨fun _ _ _ _ _ => step_present, fun _ _ _ => step_carry, fun _ _ _ => step_issue⟩

/-! ### Words of the table -/

@[simp] theorem wordBytes_length (n w : Nat) : (wordBytes n w).length = n := by
  induction n with
  | zero => rfl
  | succ n ih => rw [wordBytes, List.length_cons, ih]

/-- A word of the table is bits of one channel (R70). -/
theorem decodeTableWord_eq_some (h : decodeTableWord nbits w = some i) :
    ∃ c, Channel.ofBits nbits = some c ∧ decode c (wordBytes ((nbits + 7) / 8) w) = .ok i := by
  unfold decodeTableWord at h
  split at h
  · cases h
  · next c hc =>
    split at h
    · next hi => cases h; exact ⟨c, hc, hi⟩
    · cases h

/-- Only the seven bytes of a command frame are a word of the command format (R76). -/
theorem ofBits_eq_cmd (h : Channel.ofBits nbits = some .cmd) : nbits = 56 := by
  unfold Channel.ofBits at h
  split at h <;> cases h
  rfl

theorem withFetchWord_of_cmd (s : State) (w : Nat) :
    s.withFetchWord 56 w = { s with tx := wordBytes 7 w ++ s.tx, turns := .carry :: s.turns } := rfl

theorem withFetchWord_of_ne_cmd (s : State) (w : Nat) (h : Channel.ofBits nbits = some c) (hc : c ≠ .cmd) :
    s.withFetchWord nbits w = { s with turns := .present c (wordBytes ((nbits + 7) / 8) w) :: s.turns } := by
  cases c with
  | cmd => exact absurd rfl hc
  | _ => simp only [State.withFetchWord, h]

/-- Settles O6: a command word stands as the oldest frame of TX and is carried, any other is presented. -/
theorem fetchedTableWordRuns : Obligations.FetchedTableWordRuns := by
  intro s nbits w i h
  obtain ⟨c, hbits, hdecode⟩ := decodeTableWord_eq_some h
  by_cases hc : c = .cmd
  · subst hc
    obtain rfl := ofBits_eq_cmd hbits
    rw [withFetchWord_of_cmd]
    refine step_carry rfl (by simp) ?_
    rwa [List.take_left' (wordBytes_length 7 w)]
  · rw [withFetchWord_of_ne_cmd s w hbits hc]
    exact step_present rfl hdecode

end Sys2Proof.Machine
end

section
/-! Where each instruction's acceptance leaves the block: SYNC, COLLECT and DRAIN go on with bytes (R100, R107, R112),
every other operation is complete, and a busy block takes no code (R115, R174). -/

namespace Sys2Proof.Machine

variable {s t : State} {i : Instr}

/-- An operation word in IDLE is its own act, after `ERR <- NONE`. -/
theorem exec_op_of_idle (hc : i.channel = .op) (hst : s.block.st = .idle) :
    exec i s = opAct i (s.mapBlock Block.clearErr) :=
  (exec_op hc s).trans (accept_of_idle _ hst)

/-- In IDLE an error entry writes `ERR` alone (R204). -/
theorem Block.raise_of_idle {b : Block} (e : Err) (hst : b.st = .idle) : b.raise e = { b with err := e } := by
  rw [Block.raise, ← hst]

/-- Settles O7: the act of SYNC, written out. -/
theorem syncAccepted : Obligations.SyncAccepted :=
  fun _ hst => exec_op_of_idle rfl hst

/-- Settles O8: the two branches of COLLECT's precondition. -/
theorem collectAccepted : Obligations.CollectAccepted := by
  refine fun s hst => ⟨fun hcnt => ?_, fun hcnt => ?_⟩
  · exact (exec_op_of_idle rfl hst).trans (if_pos hcnt)
  · calc exec .collect s = .next { s with block := s.block.clearErr.raise .seq } :=
          (exec_op_of_idle rfl hst).trans (if_neg hcnt)
      _ = .next { s with block := { s.block with err := .seq } } := by
          rw [Block.raise_of_idle (b := s.block.clearErr) .seq hst]; rfl

/-- Settles O9: the act of DRAIN, written out. -/
theorem drainAccepted : Obligations.DrainAccepted :=
  fun _ hst => exec_op_of_idle rfl hst

/-- Where an operation word leaves the block once accepted. -/
theorem opAct_st (hc : i.channel = .op) (hst : s.block.st = .idle) (h : opAct i s = .next t) :
    t.block.st =
      if i = .sync then .hunt
      else if i = .collect then (if s.block.fbCnt = 2 then .collect else .idle)
      else if i = .drain then .drain
      else .idle := by
  cases i <;> simp only [Instr.channel, reduceCtorEq] at hc
  case collect =>
    simp only [opAct, collectAct] at h
    split at h <;> rename_i hcnt <;> cases h
    · exact (if_pos hcnt).symm
    · exact (if_neg hcnt).symm
  case validate =>
    rcases validateAct_cases h with ⟨_, rfl⟩ | ⟨_, _, _, _, _, ⟨_, rfl⟩ | ⟨_, rfl⟩⟩ <;> simp [hst]
  case txSleep | txWake | txPassive | txActive | txRead => cases h; simpa using hst
  all_goals cases h; rfl

/-- An Abort leaves the block in IDLE, whatever was in progress (R170, R171). -/
theorem Block.abort_st (b : Block) : b.abort.st = .idle := by
  cases hst : b.st <;> simp [Block.abort, hst]

/-- A busy block is changed by no instruction but the strobes (R170, R174, R230). -/
theorem exec_keeps_busy_block (hst : s.block.st ≠ .idle) (habort : i ≠ .abort) (hreset : i ≠ .reset)
    (h : exec i s = .next t) : t.block = s.block := by
  rcases exec_cases i s with ⟨_, e⟩ | ⟨rfl, _⟩ | ⟨rfl, _⟩ | ⟨_, e⟩ | ⟨_, e⟩
  · rw [e, accept_of_busy _ hst] at h
    cases h; rfl
  · exact absurd rfl habort
  · exact absurd rfl hreset
  all_goals rw [e] at h; cases h; simp

end Sys2Proof.Machine
end

section
/-! What a taking of the oldest byte of RX is in each receiving state, as the exact next state (R101 to R105, R108,
R113). -/

namespace Sys2Proof.Machine

variable {s t : State} {b : Block} {bound : ScanBound} {v : Byte} {rest : List Byte}

/-! ### The scan -/

/-- A byte of a scan that does not complete the marker goes through the bound's test (R101 to R103). -/
theorem Block.rxByte_scan (hst : b.st = .hunt ∨ (b.st = .got42 ∧ v ≠ Config.marker1)) :
    b.rxByte bound v = .ok ((b.countByte.goto (if v = Config.marker0 then .got42 else .hunt)).checkBound bound) := by
  rcases hst with hst | ⟨hst, hv⟩
  · simp only [Block.rxByte, hst, Block.rxHunt]
  · simp only [Block.rxByte, hst, Block.rxGot42, if_neg hv]

/-- The byte that completes the marker (R104). -/
theorem Block.rxByte_marker (hst : b.st = .got42) :
    b.rxByte bound Config.marker1 = .ok (b.countByte.storeMarker.goto .idle) := by
  simp only [Block.rxByte, hst, Block.rxGot42, if_true]

/-- `SCAN_CNT` after a byte (R15, R101). -/
theorem Block.countByte_eq (b : Block) :
    b.countByte = { b with scanCnt := BitVec.ofNat 16 (min (b.scanCnt.toNat + 1) 0xFFFF) } := by
  have hcnt : b.countByte.scanCnt = BitVec.ofNat 16 (min (b.scanCnt.toNat + 1) 0xFFFF) := by
    rw [← Block.countByte_toNat, BitVec.ofNat_toNat, BitVec.setWidth_eq]
  rw [← hcnt]
  rfl

/-- A byte of the scan counted, and the bound tested (R101, R105). -/
theorem Block.scanByte_eq (bound : ScanBound) (x : St) (b : Block) :
    let n := min (b.scanCnt.toNat + 1) 0xFFFF
    let hit := bound.toNat ≠ 0 ∧ n = bound.toNat
    (b.countByte.goto x).checkBound bound = { b with
      scanCnt := BitVec.ofNat 16 n
      st := if hit then .idle else x
      err := if hit then .timeout else b.err } := by
  intro n hit
  have hn : (b.countByte.goto x).scanCnt.toNat = n := b.countByte_toNat
  rcases Block.checkBound_cases bound (b.countByte.goto x) with ⟨h0, hcnt, e⟩ | ⟨hmiss, e⟩
  · have hhit : hit := ⟨h0, hn ▸ hcnt⟩
    rw [e, Block.countByte_eq, if_pos hhit, if_pos hhit]
    rfl
  · rw [hn] at hmiss
    rw [e, Block.countByte_eq, if_neg hmiss, if_neg hmiss]
    rfl

/-- A byte taken in a scan that does not complete the marker: counted, saturating, not stored, and the bound tested. -/
theorem takeByte_scan (hrx : s.rx = v :: rest) (hst : s.block.st = .hunt ∨ (s.block.st = .got42 ∧ v ≠ Config.marker1)) :
    let n := min (s.block.scanCnt.toNat + 1) 0xFFFF
    let hit := s.syncMax.toNat ≠ 0 ∧ n = s.syncMax.toNat
    takeByte s = .next { s with
      rx := rest
      block := { s.block with
        scanCnt := BitVec.ofNat 16 n
        st := if hit then .idle else if v = 0x42 then .got42 else .hunt
        err := if hit then .timeout else s.block.err } } := by
  intro n hit
  have hbusy : s.block.st ≠ .idle := by
    rcases hst with hst | ⟨hst, _⟩ <;> simp [hst]
  rw [takeByte_of_ready hrx (rxReady_of_busy hbusy) (Block.rxByte_scan hst), Block.scanByte_eq]

/-- Settles O19: a byte of HUNT never completes a marker. -/
theorem rxByteInHunt : Obligations.RxByteInHunt :=
  fun _ _ _ hrx hst => takeByte_scan hrx (.inl hst)

/-- Settles O20: in GOT42 only `0x4D` completes the marker. -/
theorem rxByteInGot42 : Obligations.RxByteInGot42 :=
  fun _ _ _ hrx hst hv => takeByte_scan hrx (.inr ⟨hst, hv⟩)

/-- `0x4D` taken in GOT42: the marker is counted and stored, and the scan ends (R104). -/
theorem takeByte_marker (hrx : s.rx = 0x4D :: rest) (hst : s.block.st = .got42) :
    takeByte s = .next { s with
      rx := rest
      block := { s.block with
        scanCnt := BitVec.ofNat 16 (min (s.block.scanCnt.toNat + 1) 0xFFFF)
        fb := (s.block.fb.write 0 0x42).write 1 0x4D, fbCnt := 2, st := .idle } } := by
  rw [takeByte_of_ready hrx (rxReady_of_busy (by simp [hst])) (Block.rxByte_marker hst), Block.countByte_eq]
  rfl

theorem Memory.read_marker (m : Memory) (a : Nat) :
    ((m.write 0 0x42).write 1 0x4D).read a = if a = 1 then some 0x4D else if a = 0 then some 0x42 else m.read a := by
  rw [Memory.read_write, Memory.read_write]

/-- Settles O21: the marker's two writes reach no other cell. -/
theorem markerCompletes : Obligations.MarkerCompletes :=
  fun _ _ hrx hst => ⟨_, takeByte_marker hrx hst, Memory.read_marker _ 0, Memory.read_marker _ 1,
    fun a h0 h1 => by rw [Memory.read_marker, if_neg h1, if_neg h0]⟩

/-! ### COLLECT and DRAIN -/

/-- A byte taken in COLLECT with room for it (R108, R109). -/
theorem takeByte_collect (hrx : s.rx = v :: rest) (hst : s.block.st = .collect) (hroom : s.block.fbCnt.toNat ≤ 31) :
    takeByte s = .next { s with
      rx := rest
      block := { s.block with
        fb := s.block.fb.write s.block.fbCnt.toNat v
        fbCnt := s.block.fbCnt + 1
        st := if s.block.fbCnt.toNat = 31 then .idle else .collect } } := by
  obtain ⟨b', hb⟩ : ∃ b', s.block.rxByte s.syncMax v = .ok b' := by
    simp only [Block.rxByte, hst, Block.rxCollect, Block.storeFrameByte, if_pos (Nat.lt_succ_of_le hroom)]
    exact ⟨_, rfl⟩
  have hcases := Block.rxByte_cases hb
  simp only [hst, reduceCtorEq, false_and, or_false, false_or, true_and] at hcases
  obtain ⟨_, rfl⟩ := hcases
  exact takeByte_of_ready hrx (rxReady_of_busy (by simp [hst])) hb

/-- A byte taken in DRAIN with room for it (R113, R114). -/
theorem takeByte_drain (hrx : s.rx = v :: rest) (hst : s.block.st = .drain) (hroom : s.block.ackCnt.toNat ≤ 7) :
    takeByte s = .next { s with
      rx := rest
      block := { s.block with
        ackb := s.block.ackb.write s.block.ackCnt.toNat v
        ackCnt := s.block.ackCnt + 1
        st := if s.block.ackCnt.toNat = 7 then .idle else .drain } } := by
  obtain ⟨b', hb⟩ : ∃ b', s.block.rxByte s.syncMax v = .ok b' := by
    simp only [Block.rxByte, hst, Block.rxDrain, Block.storeAckByte, if_pos (Nat.lt_succ_of_le hroom)]
    exact ⟨_, rfl⟩
  have hcases := Block.rxByte_cases hb
  simp only [hst, reduceCtorEq, false_and, or_false, false_or, true_and] at hcases
  obtain ⟨_, rfl⟩ := hcases
  exact takeByte_of_ready hrx (rxReady_of_busy (by simp [hst])) hb

/-- Settles O22: one write of FB, at `fb_cnt`. -/
theorem rxByteInCollect : Obligations.RxByteInCollect :=
  fun _ _ _ hrx hst hroom => ⟨_, takeByte_collect hrx hst hroom, fun _ => Memory.read_write _ _ _ _⟩

/-- Settles O23: one write of ACKB, at `ack_cnt`. -/
theorem rxByteInDrain : Obligations.RxByteInDrain :=
  fun _ _ _ hrx hst hroom => ⟨_, takeByte_drain hrx hst hroom, fun _ => Memory.read_write _ _ _ _⟩

end Sys2Proof.Machine
end

section
/-! The table of R115: every change of `st`. -/

namespace Sys2Proof.Machine

variable {s t : State}

/-- The part of the table about instructions: an operation where the block is idle, a strobe anywhere. -/
theorem exec_st {i : Instr} (h : exec i s = .next t) :
    (i = .reset ∨ i = .abort → t.block.st = .idle) ∧
    (s.block.st = .idle → i = .sync → t.block.st = .hunt) ∧
    (s.block.st = .idle → i = .collect → t.block.st = if s.block.fbCnt = 2 then .collect else .idle) ∧
    (s.block.st = .idle → i = .drain → t.block.st = .drain) ∧
    (s.block.st = .idle → i ≠ .sync → i ≠ .collect → i ≠ .drain → t.block.st = .idle) ∧
    (s.block.st ≠ .idle → i ≠ .abort → i ≠ .reset → t.block.st = s.block.st) := by
  have hop (hc : i.channel = .op) (hst : s.block.st = .idle) :=
    opAct_st (s := s.mapBlock Block.clearErr) hc hst ((exec_op_of_idle hc hst).symm.trans h)
  have hstrobe : i = .reset ∨ i = .abort → t.block.st = .idle := by
    rintro (rfl | rfl) <;> cases h
    · rfl
    · exact Block.abort_st s.block
  refine ⟨hstrobe, ?_, ?_, ?_, fun hst hsync hcollect hdrain => ?_, fun hst habort hreset => ?_⟩
  · rintro hst rfl; exact hop rfl hst
  · rintro hst rfl; exact hop rfl hst
  · rintro hst rfl; exact hop rfl hst
  · rcases exec_cases i s with ⟨hc, _⟩ | ⟨hi, _⟩ | ⟨hi, _⟩ | ⟨_, e⟩ | ⟨_, e⟩
    · simpa only [hsync, hcollect, hdrain, if_false] using hop hc hst
    · exact hstrobe (.inr hi)
    · exact hstrobe (.inl hi)
    all_goals cases e.symm.trans h; simpa using hst
  · rw [exec_keeps_busy_block hst habort hreset h]

/-- Settles O46: the instructions by `exec_st`, the bytes by what RxByte can do. -/
theorem transitionTable : Obligations.TransitionTable := by
  refine ⟨fun i s t h => exec_st h, fun s t v rest hrx h => ?_⟩
  rcases takeByte_cases h with ⟨hnone, rfl⟩ | ⟨v', rest', b, hrx', hready, hb, rfl⟩
  · have hst : t.block.st = .idle := by
      by_contra hbusy
      simp [hrx, rxReady_of_busy hbusy] at hnone
    rw [hst]; rfl
  obtain ⟨rfl, rfl⟩ := List.cons.inj (hrx.symm.trans hrx')
  rcases Block.rxByte_cases hb with ⟨hst, rfl⟩ | ⟨hst, rfl⟩ | ⟨hst, hv, rfl⟩ | ⟨hst, _, rfl⟩ | ⟨hst, _, rfl⟩
  · simp [hst]
  · have hne : ¬ (s.block.st = .got42 ∧ v = 0x4D) := by
      rintro ⟨hg, hv⟩
      simp [hg, hv] at hst
    have hscan : s.block.st ≠ .idle ∧ s.block.st ≠ .collect ∧ s.block.st ≠ .drain := by
      rcases hst with hst | ⟨hst, _⟩ <;> simp [hst]
    obtain ⟨hidle, hcollect, hdrain⟩ := hscan
    rw [if_neg hidle, if_neg hcollect, if_neg hdrain, if_neg hne]
    rcases Block.checkBound_cases s.syncMax (s.block.countByte.goto (if v = Config.marker0 then .got42 else .hunt))
      with ⟨h0, hcnt, e⟩ | ⟨hmiss, e⟩ <;> simp only [e]
    · exact (if_pos ⟨h0, hcnt⟩).symm
    · exact (if_neg hmiss).symm
  · simp [hst, hv]
  · simp [hst]
  · simp [hst]

end Sys2Proof.Machine
end

section
/-! A silent line: a receiving block waits, and so does a host that waits for it (R116). -/

namespace Sys2Proof.Machine

variable {s : State}

/-- A state that a step leaves as it was is never left. -/
theorem run_of_step_self (h : step s = .next s) (n : Nat) : Sys2Proof.core.run n s = .next s := by
  induction n with
  | zero => rfl
  | succ n ih => rw [Nat.add_comm, run_step_add h, ih]

/-- A line that waits for the end of the operation changes nothing meanwhile (R86, R174). -/
theorem runLine_waits {l : Line} {wait u : State} (hst : u.block.st ≠ .idle)
    (hl : (∃ code, l = .issue code) ∨ l = .await ∨ l = .check ∨ l = .reset) : runLine l wait u = .next wait := by
  have hready : u.block.opReady = false := by simpa [Block.opReady] using hst
  rcases hl with ⟨code, rfl⟩ | rfl | rfl | rfl <;> simp only [runLine, hready, Bool.false_eq_true, if_false]

/-- Settles O52: neither the block nor the host can move, and no operation code reaches a busy block. -/
theorem silentLineBlocks : Obligations.SilentLineBlocks := by
  refine ⟨fun s hst hrx hturns hscript => run_of_step_self ?_, fun i s t hst h hne => ?_⟩
  · rw [step_host hturns (by simp [State.rxEnabled, hrx])]
    unfold hostMove
    split
    · rfl
    · next l rest hs => exact runLine_waits hst (hscript l rest hs)
  · by_contra hi
    obtain ⟨habort, hreset⟩ := not_or.1 hi
    exact hne (exec_keeps_busy_block hst habort hreset h)

end Sys2Proof.Machine
end

section
/-! Whole receiving operations: how many bytes one takes until it ends. A COLLECT and a DRAIN store a fixed number of
bytes (R109, R114). -/

namespace Sys2Proof.Machine

variable {s t u : State} {n : Nat}

/-! ### The bytes an operation takes -/

theorem endsAfter_of_idle (hst : s.block.st = .idle) : EndsAfter n s t ↔ n = 0 ∧ t = s := by
  refine ⟨fun ⟨hrun, _, hbusy⟩ => ?_, ?_⟩
  · obtain rfl : n = 0 := by
      by_contra hn
      exact hbusy 0 (Nat.pos_of_ne_zero hn) s rfl hst
    exact ⟨rfl, (Option.some.inj hrun).symm⟩
  · rintro ⟨rfl, rfl⟩
    exact ⟨rfl, hst, fun k hk => absurd hk k.not_lt_zero⟩

theorem EndsAfter.st_of_zero (h : EndsAfter 0 s t) : s.block.st = .idle := by
  obtain ⟨hrun, hidle, _⟩ := h
  cases hrun
  exact hidle

/-- An operation that ends with more than one byte ends from the state after the first. -/
theorem endsAfter_succ (h : takeByte s = .next u) : EndsAfter (n + 1) s t ↔ s.block.st ≠ .idle ∧ EndsAfter n u t := by
  have htail (k : Nat) : takeN (k + 1) s = takeN k u := by simp only [takeN, h]
  refine ⟨fun ⟨hrun, hidle, hbusy⟩ => ⟨hbusy 0 n.succ_pos s rfl, (htail n).symm.trans hrun, hidle, fun k hk w hw => ?_⟩,
    fun ⟨hfirst, hrun, hidle, hbusy⟩ => ⟨(htail n).trans hrun, hidle, fun k hk w hw => ?_⟩⟩
  · exact hbusy (k + 1) (Nat.succ_lt_succ hk) w ((htail k).trans hw)
  · cases k with
    | zero => cases hw; exact hfirst
    | succ k => exact hbusy k (Nat.lt_of_succ_lt_succ hk) w ((htail k).symm.trans hw)

/-- An operation followed byte by byte through busy states, to a last byte that ends it. -/
theorem endsAfter_of_steps (f : Nat → State) (hbusy : ∀ k ≤ n, (f k).block.st ≠ .idle)
    (hstep : ∀ k < n, takeByte (f k) = .next (f (k + 1))) (hlast : takeByte (f n) = .next t)
    (hidle : t.block.st = .idle) : EndsAfter (n + 1) (f 0) t := by
  induction n generalizing f with
  | zero => exact (endsAfter_succ hlast).2 ⟨hbusy 0 le_rfl, (endsAfter_of_idle hidle).2 ⟨rfl, rfl⟩⟩
  | succ n ih =>
    refine (endsAfter_succ (hstep 0 n.succ_pos)).2 ⟨hbusy 0 (Nat.zero_le _), ih (fun k => f (k + 1)) ?_ ?_ hlast⟩
    · exact fun k hk => hbusy (k + 1) (Nat.succ_le_succ hk)
    · exact fun k hk => hstep (k + 1) (Nat.succ_lt_succ hk)

/-! ### Bytes stored one behind the other -/

/-- The array after the first `n` of the bytes `vs` have been written from offset `a` on. -/
def Memory.stored (m : Memory) (a : Nat) (vs : List Byte) : Nat → Memory
  | 0 => m
  | n + 1 => (m.stored a vs n).write (a + n) (vs.getD n 0)

theorem Memory.read_stored (m : Memory) (a : Nat) {vs : List Byte} (hn : n ≤ vs.length) (x : Nat) :
    (m.stored a vs n).read x = if a ≤ x ∧ x < a + n then vs[x - a]? else m.read x := by
  induction n with
  | zero => exact (if_neg (by omega)).symm
  | succ n ih =>
    rw [Memory.stored, Memory.read_write, ih (Nat.le_of_succ_le hn)]
    by_cases hx : x = a + n
    · have hget : vs[n]? = some (vs.getD n 0) := by simp [List.getElem?_eq_getElem hn, List.getD]
      rw [if_pos hx, if_pos (by omega), hx, Nat.add_sub_cancel_left, hget]
    · rw [if_neg hx]
      exact if_congr (by omega) rfl rfl

theorem drop_eq_getD_cons {vs : List Byte} (hn : n < vs.length) : vs.drop n = vs.getD n 0 :: vs.drop (n + 1) := by
  rw [List.getD_eq_getElem _ _ hn]
  exact List.drop_eq_getElem_cons hn

/-! ### COLLECT -/

/-- COLLECT in progress in the machine `s`, `n` bytes of RX stored behind the marker. -/
def State.collecting (s : State) (n : Nat) : State :=
  { s with
    rx := s.rx.drop n
    block := { s.block with
      st := .collect, fb := s.block.fb.stored 2 s.rx n, fbCnt := BitVec.ofNat 6 (2 + n), err := .none } }

@[simp] theorem State.collecting_fb (s : State) (n : Nat) : (s.collecting n).block.fb = s.block.fb.stored 2 s.rx n :=
  rfl

theorem takeByte_collecting (hn : n < 30) (hrx : n < s.rx.length) :
    takeByte (s.collecting n) =
      .next ((s.collecting (n + 1)).mapBlock (Block.goto (if n = 29 then .idle else .collect))) := by
  have hcnt : (s.collecting n).block.fbCnt.toNat = 2 + n := Nat.mod_eq_of_lt (by omega)
  have hsucc : (s.collecting n).block.fbCnt + 1 = BitVec.ofNat 6 (2 + (n + 1)) := (BitVec.ofNat_add ..).symm
  have hlast : (2 + n = 31) = (n = 29) := by simp; omega
  rw [takeByte_collect (drop_eq_getD_cons hrx) rfl (by omega), hsucc]
  simp only [hcnt, hlast]
  rfl

theorem exec_collect_eq_collecting (hst : s.block.st = .idle) (hcnt : s.block.fbCnt = 2) :
    exec .collect s = .next (s.collecting 0) := by
  have hzero : BitVec.ofNat 6 (2 + 0) = s.block.fbCnt := hcnt.symm
  rw [(collectAccepted s hst).1 hcnt]
  simp only [State.collecting, hzero]
  rfl

/-- Settles O28: 29 bytes are stored with COLLECT in progress, and the thirtieth ends it. -/
theorem collectTakesThirtyBytes : Obligations.CollectTakesThirtyBytes := by
  intro s s0 hst hcnt h hlen
  obtain rfl : s0 = s.collecting 0 := Host.Outcome.next.inj (h.symm.trans (exec_collect_eq_collecting hst hcnt))
  have hends : EndsAfter 30 (s.collecting 0) ((s.collecting 30).mapBlock (Block.goto .idle)) := by
    refine endsAfter_of_steps s.collecting (fun k _ => nofun) (fun k hk => ?_) ?_ rfl
    · have hstep := takeByte_collecting (s := s) (n := k) (by omega) (by omega)
      rwa [if_neg (by omega)] at hstep
    · have hlast := takeByte_collecting (s := s) (n := 29) (by decide) (by omega)
      rwa [if_pos rfl] at hlast
  refine ⟨_, hends, ?_, rfl, fun hinv => ?_, fun a => ?_⟩
  · simp [State.mapBlock, State.collecting, Block.goto, hst]
  · obtain ⟨_, _, hval⟩ := (hinv.after_exec h).block.collecting rfl
    exact hval
  · rw [State.mapBlock_block, Block.goto_fb, State.collecting_fb, Memory.read_stored _ _ hlen]
    exact if_congr (by omega) rfl rfl

/-! ### DRAIN -/

/-- DRAIN in progress in the machine `s`, `n` bytes of RX stored. -/
def State.draining (s : State) (n : Nat) : State :=
  { s with
    rx := s.rx.drop n
    block := { s.block with
      st := .drain, ackb := s.block.ackb.stored 0 s.rx n, ackCnt := BitVec.ofNat 4 n, err := .none } }

@[simp] theorem State.draining_ackb (s : State) (n : Nat) : (s.draining n).block.ackb = s.block.ackb.stored 0 s.rx n :=
  rfl

theorem takeByte_draining (hn : n < 8) (hrx : n < s.rx.length) :
    takeByte (s.draining n) = .next ((s.draining (n + 1)).mapBlock (Block.goto (if n = 7 then .idle else .drain))) := by
  have hcnt : (s.draining n).block.ackCnt.toNat = 0 + n := by
    rw [Nat.zero_add]
    exact Nat.mod_eq_of_lt (by omega)
  have hsucc : (s.draining n).block.ackCnt + 1 = BitVec.ofNat 4 (n + 1) := (BitVec.ofNat_add ..).symm
  have hlast : (0 + n = 7) = (n = 7) := by rw [Nat.zero_add]
  rw [takeByte_drain (drop_eq_getD_cons hrx) rfl (by omega), hsucc]
  simp only [hcnt, hlast]
  rfl

/-- Settles O29: seven bytes are stored with DRAIN in progress, and the eighth ends it. -/
theorem drainTakesEightBytes : Obligations.DrainTakesEightBytes := by
  intro s s0 hst h hlen
  obtain rfl : s0 = s.draining 0 := Host.Outcome.next.inj (h.symm.trans (drainAccepted s hst))
  have hends : EndsAfter 8 (s.draining 0) ((s.draining 8).mapBlock (Block.goto .idle)) := by
    refine endsAfter_of_steps s.draining (fun k _ => nofun) (fun k hk => ?_) ?_ rfl
    · have hstep := takeByte_draining (s := s) (n := k) (by omega) (by omega)
      rwa [if_neg (by omega)] at hstep
    · have hlast := takeByte_draining (s := s) (n := 7) (by decide) (by omega)
      rwa [if_pos rfl] at hlast
  refine ⟨_, hends, ?_, fun a => ?_⟩
  · simp [State.mapBlock, State.draining, Block.goto, hst]
  · rw [State.mapBlock_block, Block.goto_ackb, State.draining_ackb, Memory.read_stored _ _ hlen]
    exact if_congr (by omega) rfl rfl

end Sys2Proof.Machine
end

section
/-! A scan is its bytes: until the first marker or the bound, the bytes taken decide the state (R101 to R106). -/

namespace Sys2Proof.Machine

variable {s t : State} {p q rest : List Byte} {v : Byte} {n : Nat}

/-! ### The first marker of a list of bytes -/

/-- `v` completes the marker behind `p` (R104). -/
def Completes (p : List Byte) (v : Byte) : Prop := p.getLast? = some 0x42 ∧ v = 0x4D

theorem marker_suffix_concat : [0x42, 0x4D] <:+ p ++ [v] ↔ Completes p v := by
  constructor
  · rintro ⟨l, hl⟩
    have happend : (l ++ [0x42]) ++ [0x4D] = p ++ [v] := by simpa using hl
    obtain ⟨rfl, hv⟩ := List.append_inj' happend rfl
    exact ⟨List.getLast?_concat, (List.singleton_inj.1 hv).symm⟩
  · rintro ⟨hlast, rfl⟩
    obtain ⟨l, rfl⟩ := List.getLast?_eq_some_iff.1 hlast
    exact ⟨l, by simp⟩

theorem marker_infix_concat : [0x42, 0x4D] <:+: p ++ [v] ↔ Completes p v ∨ [0x42, 0x4D] <:+: p := by
  rw [List.infix_concat_iff, marker_suffix_concat]

theorem endsAtFirstMarker_concat : EndsAtFirstMarker (p ++ [v]) ↔ Completes p v ∧ ¬ [0x42, 0x4D] <:+: p := by
  rw [EndsAtFirstMarker, marker_suffix_concat, List.dropLast_concat]

theorem EndsAtFirstMarker.holds_marker (h : EndsAtFirstMarker p) : [0x42, 0x4D] <:+: p := h.1.isInfix

/-! ### A scan in progress -/

/-- The block in a scan that has taken the bytes `p` and found no marker in them: they are counted, and the last of them
decides between HUNT and GOT42. -/
def Block.scanned (p : List Byte) (b : Block) : Block :=
  { b with
    err := .none, fbCnt := 0, ckValid := false, ckOk := false
    scanCnt := BitVec.ofNat 16 (min p.length 0xFFFF)
    st := if p.getLast? = some 0x42 then .got42 else .hunt }

/-- The machine `s` with a scan in progress that has taken the bytes `p`, and `rest` in RX. -/
def State.scanning (s : State) (p rest : List Byte) : State := { s with rx := rest, block := s.block.scanned p }

/-- The block with the scan of the bytes `p` ended at the marker (R104). -/
def Block.found (p : List Byte) (b : Block) : Block := (b.scanned p).storeMarker.goto .idle

theorem Block.scanned_scanCnt_toNat (b : Block) (p : List Byte) : (b.scanned p).scanCnt.toNat = min p.length 0xFFFF :=
  Nat.mod_eq_of_lt (by omega)

theorem Block.scanned_busy (b : Block) (p : List Byte) : (b.scanned p).st ≠ .idle := by
  simp only [Block.scanned]
  split <;> nofun

theorem Block.scanned_countByte (b : Block) (p : List Byte) (v : Byte) :
    (b.scanned p).countByte.goto (if v = Config.marker0 then .got42 else .hunt) = b.scanned (p ++ [v]) := by
  have hn : min (min p.length 0xFFFF + 1) 0xFFFF = min (p ++ [v]).length 0xFFFF := by
    rw [List.length_append, List.length_singleton]
    omega
  rw [Block.countByte_eq, Block.scanned_scanCnt_toNat, hn]
  simp [Block.scanned, Block.goto]

theorem exec_sync_eq_scanning (hst : s.block.st = .idle) : exec .sync s = .next (s.scanning [] s.rx) :=
  syncAccepted s hst

/-- A byte that does not complete the marker joins the bytes of the scan, and ends it by TIMEOUT or not, as the bound
says (R101 to R103, R105). -/
theorem takeByte_scanning_cases (rest : List Byte) (hv : ¬ Completes p v) :
    ((s.syncMax.toNat ≠ 0 ∧ min (p ++ [v]).length 0xFFFF = s.syncMax.toNat) ∧
      takeByte (s.scanning p (v :: rest)) = .next ((s.scanning (p ++ [v]) rest).mapBlock (Block.raise .timeout))) ∨
    (¬ (s.syncMax.toNat ≠ 0 ∧ min (p ++ [v]).length 0xFFFF = s.syncMax.toNat) ∧
      takeByte (s.scanning p (v :: rest)) = .next (s.scanning (p ++ [v]) rest)) := by
  have hst : (s.block.scanned p).st = .hunt ∨ ((s.block.scanned p).st = .got42 ∧ v ≠ Config.marker1) := by
    by_cases hlast : p.getLast? = some 0x42
    · exact .inr ⟨if_pos hlast, fun h => hv ⟨hlast, h⟩⟩
    · exact .inl (if_neg hlast)
  have hbyte : (s.block.scanned p).rxByte s.syncMax v = .ok ((s.block.scanned (p ++ [v])).checkBound s.syncMax) := by
    rw [Block.rxByte_scan hst, Block.scanned_countByte]
  have htake := takeByte_of_ready (s := s.scanning p (v :: rest)) rfl (rxReady_of_busy (s.block.scanned_busy p)) hbyte
  rw [htake, ← Block.scanned_scanCnt_toNat s.block]
  rcases Block.checkBound_cases s.syncMax (s.block.scanned (p ++ [v])) with ⟨h0, hcnt, e⟩ | ⟨hmiss, e⟩ <;> rw [e]
  · exact .inl ⟨⟨h0, hcnt⟩, rfl⟩
  · exact .inr ⟨hmiss, rfl⟩

/-- The byte that completes the marker ends the scan, whatever the bound (R104). -/
theorem takeByte_scanning_found (hv : Completes p v) :
    takeByte (s.scanning p (v :: rest)) = .next { s with rx := rest, block := s.block.found (p ++ [v]) } := by
  obtain ⟨hlast, rfl⟩ := hv
  rw [takeByte_of_ready rfl (rxReady_of_busy (s.block.scanned_busy p)) (Block.rxByte_marker (if_pos hlast))]
  exact congrArg (fun b : Block => Host.Outcome.next { s with rx := rest, block := b.storeMarker.goto .idle })
    (s.block.scanned_countByte p 0x4D)

/-! ### How a scan goes on and ends -/

/-- With the bound not reached, the scan goes on. -/
theorem takeByte_scanning_on (rest : List Byte) (hv : ¬ Completes p v)
    (hbound : s.syncMax.toNat = 0 ∨ (p ++ [v]).length < s.syncMax.toNat) :
    takeByte (s.scanning p (v :: rest)) = .next (s.scanning (p ++ [v]) rest) := by
  rcases takeByte_scanning_cases (s := s) rest hv with ⟨hhit, _⟩ | ⟨_, e⟩
  · omega
  · exact e

/-- With the bound reached, the scan ends by TIMEOUT (R105, R202(a)). -/
theorem takeByte_scanning_timeout (rest : List Byte) (hv : ¬ Completes p v) (h0 : s.syncMax.toNat ≠ 0)
    (hlen : (p ++ [v]).length = s.syncMax.toNat) :
    takeByte (s.scanning p (v :: rest)) = .next ((s.scanning (p ++ [v]) rest).mapBlock (Block.raise .timeout)) := by
  rcases takeByte_scanning_cases (s := s) rest hv with ⟨_, e⟩ | ⟨hmiss, _⟩
  · exact e
  · have := ScanBound.toNat_legal s.syncMax
    omega

/-- Bytes without a marker that do not reach the bound are taken, and the scan goes on. -/
theorem EndsAfter.scan_append (hq : ¬ [0x42, 0x4D] <:+: p ++ q)
    (hbound : s.syncMax.toNat = 0 ∨ (p ++ q).length < s.syncMax.toNat) (h : EndsAfter n (s.scanning (p ++ q) rest) t) :
    EndsAfter (q.length + n) (s.scanning p (q ++ rest)) t := by
  induction q generalizing p with
  | nil => simpa using h
  | cons v q ih =>
    rw [List.append_cons] at hq hbound h
    have hv : ¬ Completes p v := fun hv =>
      hq ((marker_infix_concat.2 (.inl hv)).trans (List.prefix_append _ q).isInfix)
    have hon : s.syncMax.toNat = 0 ∨ (p ++ [v]).length < s.syncMax.toNat := by
      rw [List.length_append] at hbound
      omega
    rw [List.length_cons, Nat.add_right_comm]
    exact (endsAfter_succ (takeByte_scanning_on _ hv hon)).2 ⟨s.block.scanned_busy p, ih hq hbound h⟩

/-- A scan ends with the byte that ends it, where those before it hold no marker and do not reach the bound. -/
theorem EndsAfter.scan_last (hp : ¬ [0x42, 0x4D] <:+: p)
    (hbound : s.syncMax.toNat = 0 ∨ p.length < s.syncMax.toNat) (h : takeByte (s.scanning p (v :: rest)) = .next t)
    (hidle : t.block.st = .idle) : EndsAfter (p ++ [v]).length (s.scanning [] (p ++ v :: rest)) t := by
  have hone : EndsAfter 1 (s.scanning p (v :: rest)) t :=
    (endsAfter_succ h).2 ⟨s.block.scanned_busy p, (endsAfter_of_idle hidle).2 ⟨rfl, rfl⟩⟩
  rw [List.length_append, List.length_singleton]
  exact EndsAfter.scan_append (p := []) hp hbound hone

/-- A scan whose bound admits it ends at the first marker (R104, R106). -/
theorem EndsAfter.scan_found (hq : EndsAtFirstMarker q) (hbound : s.syncMax.toNat = 0 ∨ q.length ≤ s.syncMax.toNat) :
    EndsAfter q.length (s.scanning [] (q ++ rest)) { s with rx := rest, block := s.block.found q } := by
  rcases List.eq_nil_or_concat' q with rfl | ⟨p, v, rfl⟩
  · exact absurd hq.holds_marker (by decide)
  · obtain ⟨hv, hp⟩ := endsAtFirstMarker_concat.1 hq
    rw [List.length_append, List.length_singleton] at hbound
    rw [List.append_assoc, List.singleton_append]
    exact .scan_last hp (by omega) (takeByte_scanning_found hv) rfl

/-- A scan with no marker in the bytes its bound admits ends with the last of them, by TIMEOUT (R105). -/
theorem EndsAfter.scan_timeout (hq : ¬ [0x42, 0x4D] <:+: q) (h0 : s.syncMax.toNat ≠ 0)
    (hlen : q.length = s.syncMax.toNat) :
    EndsAfter q.length (s.scanning [] (q ++ rest)) ((s.scanning q rest).mapBlock (Block.raise .timeout)) := by
  rcases List.eq_nil_or_concat' q with rfl | ⟨p, v, rfl⟩
  · exact absurd hlen.symm h0
  · obtain ⟨hv, hp⟩ := not_or.1 (mt marker_infix_concat.2 hq)
    have hlast := takeByte_scanning_timeout rest hv h0 hlen
    rw [List.length_append, List.length_singleton] at hlen
    rw [List.append_assoc, List.singleton_append]
    exact .scan_last hp (by omega) hlast rfl

/-- A scan that ends well has ended at the first marker. -/
theorem EndsAfter.scan_end (hp : ¬ [0x42, 0x4D] <:+: p) (h : EndsAfter n (s.scanning p rest) t)
    (herr : t.block.err = .none) :
    ∃ q rest', rest = q ++ rest' ∧ q.length = n ∧ EndsAtFirstMarker (p ++ q) ∧
      t = { s with rx := rest', block := s.block.found (p ++ q) } := by
  induction n generalizing p rest with
  | zero => exact absurd h.st_of_zero (s.block.scanned_busy p)
  | succ n ih =>
    cases rest with
    | nil =>
      have hself := takeByte_of_not_ready (s := s.scanning p []) (.inl rfl)
      obtain ⟨q, rest', hrest, _, hend, _⟩ := ih hp ((endsAfter_succ hself).1 h).2
      obtain ⟨rfl, _⟩ := List.nil_eq_append_iff.1 hrest
      rw [List.append_nil] at hend
      exact absurd hend.holds_marker hp
    | cons v rest =>
      by_cases hv : Completes p v
      · obtain ⟨rfl, rfl⟩ := (endsAfter_of_idle rfl).1 ((endsAfter_succ (takeByte_scanning_found hv)).1 h).2
        exact ⟨[v], rest, rfl, rfl, endsAtFirstMarker_concat.2 ⟨hv, hp⟩, rfl⟩
      rcases takeByte_scanning_cases (s := s) rest hv with ⟨_, e⟩ | ⟨_, e⟩
      · obtain ⟨_, rfl⟩ := (endsAfter_of_idle rfl).1 ((endsAfter_succ e).1 h).2
        exact absurd herr nofun
      · have hfree : ¬ [0x42, 0x4D] <:+: p ++ [v] := fun hm => (marker_infix_concat.1 hm).elim hv hp
        obtain ⟨q, rest', rfl, rfl, hend, ht⟩ := ih hfree ((endsAfter_succ e).1 h).2
        rw [← List.append_cons] at hend ht
        exact ⟨v :: q, rest', rfl, rfl, hend, ht⟩

/-! ### The statements -/

/-- Settles O25: the scan has ended at the first marker, and its last byte has left the marker in FB. -/
theorem syncStopsAtFirstMarker : Obligations.SyncStopsAtFirstMarker := by
  intro s s0 t n hst h hends herr
  obtain rfl : s0 = s.scanning [] s.rx := Host.Outcome.next.inj (h.symm.trans (exec_sync_eq_scanning hst))
  obtain ⟨q, rest, hrx, rfl, hend, rfl⟩ := hends.scan_end (by decide) herr
  rw [hrx, List.take_left, List.drop_left]
  refine ⟨by simp, hend, rfl, Block.scanned_scanCnt_toNat s.block q, rfl, ?_, ?_⟩
  · exact Block.fbByte_eq_some.2 ⟨Nat.two_pos, Memory.read_marker s.block.fb 0⟩
  · exact Block.fbByte_eq_some.2 ⟨Nat.one_lt_two, Memory.read_marker s.block.fb 1⟩

/-- Settles O26: the bytes up to the end of the first marker are taken, and the last completes it. -/
theorem syncFindsMarkerWithinBound : Obligations.SyncFindsMarkerWithinBound := by
  intro s s0 n hst h hn hend hbound
  obtain rfl : s0 = s.scanning [] s.rx := Host.Outcome.next.inj (h.symm.trans (exec_sync_eq_scanning hst))
  have hlen : (s.rx.take n).length = n := List.length_take_of_le hn
  have hends := EndsAfter.scan_found (s := s) (rest := s.rx.drop n) hend (hlen.symm ▸ hbound)
  rw [hlen, List.take_append_drop] at hends
  exact ⟨_, hends, rfl⟩

/-- Settles O27: the bytes before the last admitted are taken, and the last meets the bound. -/
theorem scanBoundGivesTimeout : Obligations.ScanBoundGivesTimeout := by
  intro s s0 hst h h0 hn hfree
  obtain rfl : s0 = s.scanning [] s.rx := Host.Outcome.next.inj (h.symm.trans (exec_sync_eq_scanning hst))
  have hlen : (s.rx.take s.syncMax.toNat).length = s.syncMax.toNat := List.length_take_of_le hn
  have hends := EndsAfter.scan_timeout (rest := s.rx.drop s.syncMax.toNat) hfree h0 hlen
  have hcnt : min s.syncMax.toNat 0xFFFF = s.syncMax.toNat := by
    have := ScanBound.toNat_legal s.syncMax
    omega
  rw [hlen, List.take_append_drop] at hends
  refine ⟨_, hends, ?_⟩
  simp only [State.scanning, State.mapBlock, Block.scanned, Block.raise, hlen, hcnt, hst]

end Sys2Proof.Machine
end

section
/-! VALIDATE and its verdict (R130 to R135, R139, R143), and the channel port that the verdict opens (R140, R142). -/

namespace Sys2Proof.Machine

variable {s t : State} {b b' : Block} {i : Instr} {bytes : List Byte} {bound : ScanBound}

/-! ### The frame sum (R131, R137) -/

theorem natSum_append (xs ys : List Byte) : natSum (xs ++ ys) = natSum xs + natSum ys := by
  simp [natSum]

/-- A run of FB whose cells read as the bytes at the same places of a list is that part of the list. -/
theorem Block.fbBytes_eq_take_drop {a n : Nat} (h : ∀ k, a ≤ k → k < a + n → b.fbByte k = bytes[k]?)
    (hlen : a + n ≤ bytes.length) : b.fbBytes a n = some ((bytes.drop a).take n) := by
  induction n generalizing a with
  | zero => rfl
  | succ n ih =>
    have hhead : b.fbByte a = some bytes[a] := by rw [h a (Nat.le_refl a) (by omega), List.getElem?_eq_getElem]
    have htail := ih (a := a + 1) (fun k hk hk' => h k (by omega) (by omega)) (by omega)
    simp only [Block.fbBytes, hhead, htail, List.drop_eq_getElem_cons (show a < bytes.length by omega),
      List.take_succ_cons]

/-- The frame sum is the exact sum of its thirty bytes: 16 bits hold it (R137). -/
theorem Block.frameSum_of_fbBytes (h : b.fbBytes 0 30 = some bytes) :
    b.frameSum = some (sumBytes bytes) ∧ (sumBytes bytes).toNat = natSum bytes ∧ natSum bytes ≤ 7650 := by
  have hlen := Block.fbBytes_length h
  obtain ⟨hsum, hle⟩ := sumBytes_toNat bytes (by omega)
  exact ⟨by simp only [Block.frameSum, h], hsum, by omega⟩

/-- Behind the marker stand 28 bytes, of 0 to 255 each. -/
theorem natSum_of_marker (hlen : bytes.length = 30) (hmarker : bytes.take 2 = [0x42, 0x4D]) :
    143 ≤ natSum bytes ∧ natSum bytes ≤ 7283 := by
  have hsplit : natSum bytes = 143 + natSum (bytes.drop 2) :=
    calc natSum bytes = natSum (bytes.take 2 ++ bytes.drop 2) := by rw [List.take_append_drop]
      _ = 143 + natSum (bytes.drop 2) := by rw [natSum_append, hmarker]; rfl
  have hrest : (bytes.drop 2).length = 28 := by rw [List.length_drop, hlen]
  obtain ⟨-, hle⟩ := sumBytes_toNat (bytes.drop 2) (by omega)
  omega

/-- Settles O31: the 16-bit sum does not wrap, and the marker's share of it is `0x8F`. -/
theorem frameSumIsExact : Obligations.FrameSumIsExact := by
  intro b bytes h
  obtain ⟨hsum, hexact, hle⟩ := Block.frameSum_of_fbBytes h
  refine ⟨sumBytes bytes, hsum, hexact, hexact ▸ hle, fun hmarker => ?_⟩
  rw [hexact]
  exact natSum_of_marker (Block.fbBytes_length h) hmarker

/-! ### VALIDATE, way by way (R130) -/

/-- The block after VALIDATE on a whole frame with the sum `total` and the byte `ck` at offset 31 (R132 to R134). -/
def Block.judged (total : Half) (ck : Byte) (b : Block) : Block :=
  { b with
    sum := total, ckValid := true, ckOk := sumMatches total ck
    err := if sumMatches total ck then .none else .checksum }

/-- Without a whole frame VALIDATE is SEQ and nothing more. -/
theorem exec_validate_of_no_frame (hst : s.block.st = .idle) (hcnt : s.block.fbCnt ≠ 32) :
    exec .validate s = .next { s with block := { s.block with err := .seq } } :=
  calc exec .validate s = .next { s with block := s.block.clearErr.raise .seq } :=
        (exec_op_of_idle rfl hst).trans (if_neg hcnt)
    _ = .next { s with block := { s.block with err := .seq } } := by
        rw [Block.raise_of_idle (b := s.block.clearErr) .seq hst]; rfl

/-- With a whole frame VALIDATE gives its verdict, and `st` stays IDLE. -/
theorem exec_validate_of_frame {total : Half} {ck : Byte} (hst : s.block.st = .idle) (hcnt : s.block.fbCnt = 32)
    (hsum : s.block.frameSum = some total) (hck : s.block.fbByte 31 = some ck) :
    exec .validate s = .next { s with block := s.block.judged total ck } := by
  have hsum' : s.block.clearErr.frameSum = some total := hsum
  have hck' : s.block.clearErr.fbByte 31 = some ck := hck
  rw [exec_op_of_idle rfl hst]
  simp only [opAct, validateAct, State.mapBlock_block, Block.clearErr_fbCnt, hcnt, hsum', hck', if_true]
  cases hmatch : sumMatches total ck <;>
    simp [Block.judged, hmatch, State.mapBlock, Block.giveVerdict, Block.clearErr, Block.raise, hst]

/-- What VALIDATE can do: nothing while busy, SEQ without a whole frame, else its verdict. -/
theorem exec_validate_cases (h : exec .validate s = .next t) :
    (s.block.st ≠ .idle ∧ t = s) ∨
      (s.block.st = .idle ∧ s.block.fbCnt ≠ 32 ∧ t = { s with block := { s.block with err := .seq } }) ∨
      ∃ total ck, s.block.st = .idle ∧ s.block.fbCnt = 32 ∧ s.block.frameSum = some total ∧
        s.block.fbByte 31 = some ck ∧ t = { s with block := s.block.judged total ck } := by
  rcases accept_cases h with ⟨hst, hact⟩ | hbusy
  · rcases validateAct_cases hact with ⟨hcnt, _⟩ | ⟨total, ck, hcnt, hsum, hck, _⟩
    · exact .inr (.inl ⟨hst, hcnt, Host.Outcome.next.inj (h.symm.trans (exec_validate_of_no_frame hst hcnt))⟩)
    · exact .inr (.inr ⟨total, ck, hst, hcnt, hsum, hck,
        Host.Outcome.next.inj (h.symm.trans (exec_validate_of_frame hst hcnt hsum hck))⟩)
  · exact .inl hbusy

/-! ### The statements about VALIDATE -/

/-- Settles O10: FB's cells give the frame's exact sum, and the low byte of the sum is compared with offset 31. -/
theorem validateGivesVerdict : Obligations.ValidateGivesVerdict := by
  refine fun s hst => ⟨exec_validate_of_no_frame hst, fun hcnt frame hlen hread => ?_⟩
  have hbyte : ∀ k < 32, s.block.fbByte k = frame[k]? := fun k hk => by
    rw [← hread k hk, Block.fbByte, hcnt]
    exact if_pos hk
  have hck : s.block.fbByte 31 = some (frame.getD 31 0) := by
    rw [hbyte 31 (by decide), List.getElem?_eq_getElem (by omega), List.getD_eq_getElem]
  have hbytes : s.block.fbBytes 0 30 = some (frame.take 30) :=
    Block.fbBytes_eq_take_drop (fun k _ hk => hbyte k (by omega)) (by omega)
  obtain ⟨hsum, hexact, -⟩ := Block.frameSum_of_fbBytes hbytes
  have hof : BitVec.ofNat 16 (natSum (frame.take 30)) = sumBytes (frame.take 30) := by
    rw [← hexact, BitVec.ofNat_toNat, BitVec.setWidth_eq]
  rw [exec_validate_of_frame hst hcnt hsum hck, hof, ← hexact]
  simp only [Block.judged, ← sumMatches_iff, Bool.decide_eq_true]

/-- Settles O33: nothing that VALIDATE reads is among what it writes. -/
theorem validateIsRepeatable : Obligations.ValidateIsRepeatable := by
  intro s t h
  rcases exec_validate_cases h with ⟨_, rfl⟩ | ⟨hst, hcnt, rfl⟩ | ⟨total, ck, hst, hcnt, hsum, hck, rfl⟩
  · exact h
  · exact exec_validate_of_no_frame hst hcnt
  · exact exec_validate_of_frame hst hcnt hsum hck

theorem Block.fbByte_write_other (b : Block) {a k : Nat} (v : Byte) (hk : k ≠ a) :
    { b with fb := b.fb.write a v }.fbByte k = b.fbByte k :=
  Block.fbByte_congr (Memory.read_write_other b.fb a v hk) rfl

/-- Offset 30 lies outside the frame sum (R131). -/
theorem Block.frameSum_write_thirty (b : Block) (v : Byte) :
    { b with fb := b.fb.write 30 v }.frameSum = b.frameSum := by
  have hbytes : { b with fb := b.fb.write 30 v }.fbBytes 0 30 = b.fbBytes 0 30 :=
    Block.fbBytes_congr fun k _ hk => b.fbByte_write_other v (by omega)
  simp only [Block.frameSum, hbytes]

/-- Settles O32: offset 30 is neither summed nor compared, in none of VALIDATE's ways. -/
theorem offsetThirtyIsIgnored : Obligations.OffsetThirtyIsIgnored := by
  intro s t v h
  rcases exec_validate_cases h with ⟨hbusy, rfl⟩ | ⟨hst, hcnt, rfl⟩ | ⟨total, ck, hst, hcnt, hsum, hck, rfl⟩
  · exact accept_of_busy _ hbusy
  · exact exec_validate_of_no_frame hst hcnt
  · exact exec_validate_of_frame hst hcnt ((s.block.frameSum_write_thirty v).trans hsum)
      ((s.block.fbByte_write_other v (by decide)).trans hck)

/-! ### The channel port -/

/-- The port is open on a good verdict, for the twelve channels (R140). -/
theorem Block.chValid_iff {i : BitVec 4} : b.chValid i = true ↔ b.ckOk = true ∧ i.toNat ≤ 11 := by
  simp [Block.chValid, Nat.lt_succ_iff]

/-- Settles O35: by `Block.chData_eq_ok`, with `be16` as a number. -/
theorem channelPortReadsPairs : Obligations.ChannelPortReadsPairs := by
  refine fun b i => ⟨Block.chValid_iff, fun hshut v hv => ?_, fun hi lo hopen hhi hlo => ?_⟩
  · obtain ⟨hopen, -⟩ := Block.chData_eq_ok.1 hv
    exact Bool.false_ne_true (hshut.symm.trans hopen)
  · have hlo' : b.fbByte (4 + 2 * i.toNat + 1) = some lo := by rw [← hlo]; congr 1; omega
    have hpair := Block.fbHalf_eq_some.2 ⟨hi, lo, hhi, hlo', rfl⟩
    exact ⟨be16 hi lo, Block.chData_eq_ok.2 ⟨hopen, hpair⟩, be16_toNat hi lo⟩

/-! ### How long a verdict stands (R143) -/

/-! The bound's test leaves the verdict (R105). -/

@[simp] theorem Block.checkBound_ckValid (bound : ScanBound) (b : Block) :
    (b.checkBound bound).ckValid = b.ckValid := by
  rcases Block.checkBound_cases bound b with ⟨_, _, e⟩ | ⟨_, e⟩ <;> simp [e]

@[simp] theorem Block.checkBound_ckOk (bound : ScanBound) (b : Block) : (b.checkBound bound).ckOk = b.ckOk := by
  rcases Block.checkBound_cases bound b with ⟨_, _, e⟩ | ⟨_, e⟩ <;> simp [e]

/-- No RxByte touches the verdict, be it one of a scan, of COLLECT or of DRAIN. -/
theorem Block.rxByte_keeps_verdict {v : Byte} (h : b.rxByte bound v = .ok b') :
    b'.ckValid = b.ckValid ∧ b'.ckOk = b.ckOk := by
  rcases Block.rxByte_cases h with ⟨_, rfl⟩ | ⟨_, rfl⟩ | ⟨_, _, rfl⟩ | ⟨_, _, rfl⟩ | ⟨_, _, rfl⟩ <;> simp

theorem takeByte_keeps_verdict (h : takeByte s = .next t) :
    t.block.ckValid = s.block.ckValid ∧ t.block.ckOk = s.block.ckOk := by
  rcases takeByte_cases h with ⟨_, rfl⟩ | ⟨_, _, _, _, _, hb, rfl⟩
  · exact ⟨rfl, rfl⟩
  · exact Block.rxByte_keeps_verdict hb

/-- Only SYNC, the strobes and VALIDATE touch the verdict. -/
theorem exec_keeps_verdict (h : exec i s = .next t) (hsync : i ≠ .sync) (habort : i ≠ .abort) (hreset : i ≠ .reset)
    (hval : i ≠ .validate) : t.block.ckValid = s.block.ckValid ∧ t.block.ckOk = s.block.ckOk := by
  rcases exec_cases i s with ⟨hc, e⟩ | ⟨hi, _⟩ | ⟨hi, _⟩ | ⟨_, e⟩ | ⟨_, e⟩
  · rcases accept_cases (e.symm.trans h) with ⟨_, hact⟩ | ⟨_, rfl⟩
    · obtain ⟨-, -, -, -, -, -, -, -, -, -, -, -, -, -, hverdict⟩ := opAct_frame hc hact
      exact hverdict hsync hval
    · exact ⟨rfl, rfl⟩
  · exact absurd hi habort
  · exact absurd hi hreset
  all_goals cases e.symm.trans h; simp

/-- Settles O39: what drops a frame drops its verdict, and the rest leaves both. -/
theorem verdictLifetime : Obligations.VerdictLifetime := by
  refine ⟨fun s t h hst => ?_, fun s t h hst => ?_, fun s t h hst => ?_, fun s t h => ?_, fun s t h hcnt => ?_,
    fun _ _ _ => exec_keeps_verdict, fun _ _ => takeByte_keeps_verdict⟩
  · cases (syncAccepted s hst).symm.trans h
    exact ⟨rfl, rfl⟩
  · cases h
    rcases hst with hst | hst | hst <;> simp [Block.abort, hst]
  · cases h
    rcases hst with hst | hst <;> simp [Block.abort, hst]
  · cases h
    exact ⟨rfl, rfl⟩
  · rcases exec_validate_cases h with ⟨_, rfl⟩ | ⟨_, _, rfl⟩ | ⟨_, _, _, hfull, _⟩
    · exact ⟨rfl, rfl⟩
    · exact ⟨rfl, rfl⟩
    · exact absurd hfull hcnt

end Sys2Proof.Machine
end

section
/-! The command encoder: the frame it computes (R150, R151), and what the TX operations do with it (R154 to R159,
R162). -/

namespace Sys2Proof.Machine

variable {s : State} {i : Instr} {o p q : Byte} {f : List Byte}

/-- The sum of five bytes never wraps: the marker gives 143, the rest what they are (R151). -/
theorem cmdSum_toNat (o p q : Byte) : (cmdSum o p q).toNat = 0x8F + o.toNat + p.toNat + q.toNat := by
  obtain ⟨hexact, -⟩ := sumBytes_toNat [0x42, 0x4D, o, p, q] (by simp)
  calc (cmdSum o p q).toNat = natSum [0x42, 0x4D, o, p, q] := hexact
    _ = natSum [0x42, 0x4D] + natSum [o, p, q] := natSum_append [0x42, 0x4D] [o, p, q]
    _ = 0x8F + (o.toNat + (p.toNat + q.toNat)) := rfl
    _ = 0x8F + o.toNat + p.toNat + q.toNat := by omega

/-- Settles O30: the checksum's two bytes are its value, which three bytes cannot bring to 1024. -/
theorem commandFrameComposition : Obligations.CommandFrameComposition := by
  intro o p q
  have hsplit : 256 * (hiByte (cmdSum o p q)).toNat + (loByte (cmdSum o p q)).toNat =
      0x8F + o.toNat + p.toNat + q.toNat := (hiByte_loByte_toNat _).trans (cmdSum_toNat o p q)
  refine ⟨hiByte (cmdSum o p q), loByte (cmdSum o p q), rfl, hsplit, ?_⟩
  have ho := o.isLt
  have hp := p.isLt
  have hq := q.isLt
  omega

/-- A TX operation in IDLE pushes its command frame, clears `ERR` and touches nothing else (R154, R162). -/
theorem exec_transmit (hc : i.channel = .op) (hact : opAct i = transmitAct o p q) (hframe : cmdFrame o p q = f)
    (hst : s.block.st = .idle) :
    exec i s = .next { s with tx := s.tx ++ f, block := { s.block with err := .none } } := by
  rw [exec_op_of_idle hc hst, hact, ← hframe]
  rfl

/-- Settles O11: the five TX operations are `exec_transmit` at their bytes. -/
theorem transmitPushesItsFrame : Obligations.TransmitPushesItsFrame :=
  fun _ hst => ⟨exec_transmit (i := .txSleep) rfl rfl rfl hst, exec_transmit (i := .txWake) rfl rfl rfl hst,
    exec_transmit (i := .txPassive) rfl rfl rfl hst, exec_transmit (i := .txActive) rfl rfl rfl hst,
    exec_transmit (i := .txRead) rfl rfl rfl hst⟩

end Sys2Proof.Machine
end

section
/-! The control of the block (spec/43_control_and_host.md section 1): the reserved codes, the causes of SEQ, the busy
block, and the Abort strobe. -/

namespace Sys2Proof.Machine

variable {s t : State} {i : Instr}

/-- A reserved code in IDLE writes SEQ and nothing else (R172). -/
theorem exec_reserved (hi : i ∈ reservedCodes) (hst : s.block.st = .idle) :
    exec i s = .next { s with block := { s.block with err := .seq } } := by
  have hop : i.channel = .op ∧ opAct i = reservedAct := by
    simp only [reservedCodes, List.mem_cons, List.not_mem_nil, or_false] at hi
    rcases hi with rfl | rfl | rfl | rfl | rfl | rfl | rfl <;> exact ⟨rfl, rfl⟩
  obtain ⟨hc, hact⟩ := hop
  calc exec i s = .next { s with block := s.block.clearErr.raise .seq } := by
        rw [exec_op_of_idle hc hst, hact]; rfl
    _ = .next { s with block := { s.block with err := .seq } } := by
        rw [Block.raise_of_idle (b := s.block.clearErr) .seq hst]; rfl

/-- Settles O12: the seven codes are `exec_reserved`. -/
theorem reservedCodesGiveSeq : Obligations.ReservedCodesGiveSeq :=
  fun _ hst => ⟨exec_reserved (by decide) hst, exec_reserved (by decide) hst, exec_reserved (by decide) hst,
    exec_reserved (by decide) hst, exec_reserved (by decide) hst, exec_reserved (by decide) hst,
    exec_reserved (by decide) hst⟩

/-- Settles O42: the reserved codes write SEQ, COLLECT and VALIDATE where their precondition fails, and the first act of
every other operation, `ERR <- NONE`, stands. -/
theorem seqHasThreeCauses : Obligations.SeqHasThreeCauses := by
  intro i s t hc hst h
  by_cases hi : i ∈ reservedCodes
  · cases (exec_reserved hi hst).symm.trans h
    simp [hi]
  cases i <;> simp only [Instr.channel, reduceCtorEq] at hc
  case collect =>
    by_cases hcnt : s.block.fbCnt = 2
    · cases ((collectAccepted s hst).1 hcnt).symm.trans h
      simp [hi, hcnt]
    · cases ((collectAccepted s hst).2 hcnt).symm.trans h
      exact ⟨iff_of_true rfl (.inr (.inl ⟨rfl, hcnt⟩)), fun _ => rfl⟩
  case validate =>
    rcases exec_validate_cases h with ⟨hbusy, _⟩ | ⟨_, hcnt, rfl⟩ | ⟨total, ck, _, hcnt, _, _, rfl⟩
    · exact absurd hst hbusy
    · exact ⟨iff_of_true rfl (.inr (.inr ⟨rfl, hcnt⟩)), fun _ => rfl⟩
    · cases hmatch : sumMatches total ck <;> simp [hi, hcnt, Block.judged, hmatch]
  case sync | drain | txSleep | txWake | txPassive | txActive | txRead =>
    cases (exec_op_of_idle rfl hst).symm.trans h
    simp [hi]
  all_goals exact absurd (by decide) hi

/-- Settles O13: an operation code is one OpAccept, and a busy block makes none. -/
theorem busyBlockTakesNoCode : Obligations.BusyBlockTakesNoCode :=
  fun _ s hc hst => (exec_op hc s).trans (accept_of_busy _ hst)

/-! ### Abort (R170, R171) -/

theorem Block.abort_of_idle {b : Block} (hst : b.st = .idle) : b.abort = b := by
  simp only [Block.abort, hst]

/-- Abort changes the block alone. -/
theorem exec_abort_of_block {b : Block} (hb : s.block.abort = b) : exec .abort s = .next { s with block := b } := by
  rw [← hb]; rfl

theorem exec_abort_of_idle (hst : s.block.st = .idle) : exec .abort s = .next s :=
  exec_abort_of_block (Block.abort_of_idle hst)

/-- An Abort of a receiving operation is its TIMEOUT (R170). -/
theorem Block.abort_err {b : Block} (hst : b.st ≠ .idle) : b.abort.err = .timeout := by
  cases h : b.st
  case idle => exact absurd h hst
  all_goals simp [Block.abort, h]

/-- Settles O14: the four receiving states, each with what Abort does there. -/
theorem abortEndsReceiving : Obligations.AbortEndsReceiving := by
  refine fun s => ⟨fun hst => exec_abort_of_block ?_, fun hst => exec_abort_of_block ?_⟩
  · rcases hst with hst | hst | hst <;> simp only [Block.abort, hst] <;> rfl
  · simp only [Block.abort, hst]
    rfl

/-- Settles O15: VALIDATE and the TX operations are none of those that leave IDLE (R115). -/
theorem abortWhileIdleDoesNothing : Obligations.AbortWhileIdleDoesNothing := by
  refine fun s hst => ⟨exec_abort_of_idle hst, fun i t hi h => ?_⟩
  have hne : i ≠ .sync ∧ i ≠ .collect ∧ i ≠ .drain := by
    refine ⟨?_, ?_, ?_⟩ <;> rintro rfl <;> simp [transmits] at hi
  obtain ⟨hsync, hcollect, hdrain⟩ := hne
  obtain ⟨-, -, -, -, hstays, -⟩ := exec_st h
  have hidle := hstays hst hsync hcollect hdrain
  exact ⟨hidle, exec_abort_of_idle hidle⟩

end Sys2Proof.Machine
end

section
/-! Runs of the host's script: what one line does when the block is idle, and what a line's operation does until the
block is idle again (R86, R174). -/

namespace Sys2Proof.Machine

variable {s t u : State} {more : List Line} {code : BitVec 4} {n : Nat}

/-- Some number of steps leads from `s` to `t`. -/
def Leads (s t : State) : Prop := ∃ n, Sys2Proof.core.run n s = .next t

theorem Leads.refl (s : State) : Leads s s := ⟨0, rfl⟩

theorem Leads.trans (h : Leads s t) (h' : Leads t u) : Leads s u :=
  let ⟨n, hn⟩ := h
  let ⟨k, hk⟩ := h'
  ⟨n + k, (run_add hn k).trans hk⟩

theorem Leads.of_step (h : step s = .next t) : Leads s t := ⟨1, run_one.trans h⟩

/-! ### Bytes -/

/-- With no turn listed a byte is taken whenever one can be. -/
theorem Leads.byte (ht : s.turns = []) (h : takeByte s = .next t) : Leads s t := by
  rcases takeByte_cases h with ⟨_, rfl⟩ | ⟨v, rest, b, hrx, hready, _, _⟩
  · exact .refl t
  · exact .of_step ((step_byte ht (by simp [State.rxEnabled, hready, hrx])).trans h)

theorem Leads.takes (ht : s.turns = []) (h : takeN n s = some t) : Leads s t := by
  induction n generalizing s with
  | zero => cases h; exact .refl _
  | succ n ih =>
    simp only [takeN] at h
    split at h
    · next u hu => exact (Leads.byte ht hu).trans (ih ((takeByte_turns hu).trans ht) h)
    · cases h
    · cases h

/-- Nothing is left to take when the block is idle. -/
theorem EndsAfter.of_idle (hst : s.block.st = .idle) : EndsAfter 0 s s := (endsAfter_of_idle hst).2 ⟨rfl, rfl⟩

theorem EndsAfter.st_idle (h : EndsAfter n s t) : t.block.st = .idle :=
  let ⟨_, hidle, _⟩ := h
  hidle

/-! ### The lines of an idle block -/

/-- The machine after a check that found an error: `more` is what stood behind the check (R179, R182, R183). -/
def State.failed (more : List Line) (s : State) : State :=
  { s with linkOpen := false, report := .failed s.block.err, script := abandon more }

/-- The machine `s` whose host waits for the end of an operation that it then checks; `more` stands behind the check. -/
def State.awaitingCheck (more : List Line) (s : State) : State := { s with script := .await :: .check :: more }

section
variable (ht : s.turns = []) (hst : s.block.st = .idle)
include ht hst

/-- The host's next line is done, in a block that takes no byte. -/
theorem step_line {l : Line} (hs : s.script = l :: more) (h : runLine l s { s with script := more } = .next t) :
    step s = .next t := by
  rw [step_host ht (rxEnabled_of_idle hst)]
  simp only [hostMove, hs, h]

theorem Leads.line {l : Line} (hs : s.script = l :: more) (h : runLine l s { s with script := more } = .next t) :
    Leads s t :=
  .of_step (step_line ht hst hs h)

theorem step_await (hs : s.script = .await :: more) : step s = .next { s with script := more } :=
  step_line ht hst hs (by simp [runLine, Block.opReady, hst])

theorem step_check_passes (hs : s.script = .check :: more) (herr : s.block.err = .none) :
    step s = .next { s with script := more } :=
  step_line ht hst hs (by simp [runLine, Block.opReady, hst, herr])

theorem step_check_fails (hs : s.script = .check :: more) (herr : s.block.err ≠ .none) :
    step s = .next (s.failed more) :=
  step_line ht hst hs (by simp [runLine, Block.opReady, hst, herr, State.failed])

/-- An operation of the script: its code is accepted, it takes the bytes that end it, and the host goes on. -/
theorem Leads.operation (hs : s.script = opLine code ++ more)
    (hexec : exec (decodeOp code) { s with script := .await :: more } = .next u) (hends : EndsAfter n u t)
    (hscript : t.script = .await :: more) (hturns : t.turns = []) : Leads s { t with script := more } := by
  obtain ⟨htakes, hidle, _⟩ := hends
  have haccept : Leads s u := .of_step ((step_issue ht hst hs).trans hexec)
  exact (haccept.trans (.takes ((exec_turns hexec).trans ht) htakes)).trans (.of_step (step_await hturns hidle hscript))

/-- The same with a check behind it that finds no error. -/
theorem Leads.operation_passes (hs : s.script = opLine code ++ .check :: more)
    (hexec : exec (decodeOp code) (s.awaitingCheck more) = .next u) (hends : EndsAfter n u t)
    (hscript : t.script = .await :: .check :: more) (hturns : t.turns = []) (herr : t.block.err = .none) :
    Leads s { t with script := more } :=
  (Leads.operation ht hst hs hexec hends hscript hturns).trans
    (.of_step (step_check_passes (s := { t with script := .check :: more }) hturns hends.st_idle rfl herr))

/-- The same with a check behind it that finds an error. -/
theorem Leads.operation_fails (hs : s.script = opLine code ++ .check :: more)
    (hexec : exec (decodeOp code) (s.awaitingCheck more) = .next u) (hends : EndsAfter n u t)
    (hscript : t.script = .await :: .check :: more) (hturns : t.turns = []) (herr : t.block.err ≠ .none) :
    Leads s (t.failed more) :=
  (Leads.operation ht hst hs hexec hends hscript hturns).trans
    (.of_step (step_check_fails (s := { t with script := .check :: more }) hturns hends.st_idle rfl herr))

/-- An operation that is complete with its acceptance. -/
theorem Leads.operation_at_once (hs : s.script = opLine code ++ more)
    (hexec : exec (decodeOp code) { s with script := .await :: more } = .next t) (hidle : t.block.st = .idle)
    (hscript : t.script = .await :: more) (hturns : t.turns = []) : Leads s { t with script := more } :=
  .operation ht hst hs hexec (.of_idle hidle) hscript hturns

end

end Sys2Proof.Machine
end

section
/-! What the host's public operations send: SLEEP and WAKE, and the beginning of READ and of SET_MODE (R179 to R183). -/

namespace Sys2Proof.Machine

variable {s : State} {more : List Line} {code : BitVec 4} {f : List Byte}

/-- The code `code`, accepted, pushes the frame `f` to TX and clears `ERR` (R154). -/
def Sends (code : BitVec 4) (f : List Byte) : Prop :=
  ∀ u : State, u.block.st = .idle →
    exec (decodeOp code) u = .next { u with tx := u.tx ++ f, block := { u.block with err := .none } }

theorem sends_sleep : Sends 0x8 [0x42, 0x4D, 0xE4, 0x00, 0x00, 0x01, 0x73] :=
  fun _ => exec_transmit (i := .txSleep) rfl rfl rfl

theorem sends_wake : Sends 0x9 [0x42, 0x4D, 0xE4, 0x00, 0x01, 0x01, 0x74] :=
  fun _ => exec_transmit (i := .txWake) rfl rfl rfl

theorem sends_passive : Sends 0xA [0x42, 0x4D, 0xE1, 0x00, 0x00, 0x01, 0x70] :=
  fun _ => exec_transmit (i := .txPassive) rfl rfl rfl

theorem sends_active : Sends 0xB [0x42, 0x4D, 0xE1, 0x00, 0x01, 0x01, 0x71] :=
  fun _ => exec_transmit (i := .txActive) rfl rfl rfl

theorem sends_read : Sends 0xC [0x42, 0x4D, 0xE2, 0x00, 0x00, 0x01, 0x71] :=
  fun _ => exec_transmit (i := .txRead) rfl rfl rfl

section
variable (ht : s.turns = []) (hst : s.block.st = .idle)
include ht hst

theorem Leads.transmission (hsends : Sends code f) (hs : s.script = opLine code ++ more) :
    Leads s { s with script := more, tx := s.tx ++ f, block := { s.block with err := .none } } :=
  .operation_at_once ht hst hs (hsends _ hst) hst rfl ht

/-- A sequence that only sends (R180, R181). -/
theorem Leads.sendOnly {p : Pseudo} (hsends : Sends code f) (hs : s.script = .pseudo p :: more)
    (hp : p.expand s.mode = .openLink :: (opLine code ++ [.closeLink, .done])) :
    Leads s { s with
      script := more, linkOpen := false, report := .done, block := { s.block with err := .none }
      tx := s.tx ++ f } := by
  have hexpand : Leads s { s with script := .openLink :: (opLine code ++ .closeLink :: .done :: more) } :=
    .line ht hst hs (by simp [runLine, hp])
  refine hexpand.trans (.trans (.line ht hst rfl rfl) (.trans (.transmission ht hst hsends rfl) ?_))
  exact .trans (.line ht hst rfl rfl) (.line ht hst rfl rfl)

end

/-- Settles O57: two sequences that only send. -/
theorem sleepAndWakeOnlySend : Obligations.SleepAndWakeOnlySend :=
  fun _ ht hst => ⟨fun hs => Leads.sendOnly ht hst sends_sleep hs rfl,
    fun hs => Leads.sendOnly ht hst sends_wake hs rfl⟩

/-! ### The beginning of READ (R179) -/

/-- What READ sends, in each Mode of the host. -/
def readCommand (m : Mode) : List Byte := if m = .passive then [0x42, 0x4D, 0xE2, 0x00, 0x00, 0x01, 0x71] else []

/-- READ behind its COLLECT. -/
def readVerdict (more : List Line) : List Line := .closeLink :: (opLine 0x3 ++ .check :: .ret :: more)

/-- READ behind its SYNC. -/
def readFrameBody (more : List Line) : List Line := opLine 0x2 ++ .check :: readVerdict more

/-- READ from its SYNC on. -/
def readScan (more : List Line) : List Line := opLine 0x1 ++ .check :: readFrameBody more

/-- The machine `s` within READ, with the block and RX as given. -/
def State.reading (s : State) (b : Block) (rx : List Byte) (lines : List Line) : State :=
  { s with block := b, rx := rx, script := lines, linkOpen := true, tx := s.tx ++ readCommand s.mode }

/-- READ up to its SYNC: nothing but `ERR` of the block is touched. -/
theorem Leads.read_begins (ht : s.turns = []) (hst : s.block.st = .idle) (hs : s.script = .pseudo .read :: more) :
    ∃ e, Leads s (s.reading { s.block with err := e } s.rx (readScan more)) := by
  cases hm : s.mode with
  | active =>
    have hexpand : Leads s { s with script := .openLink :: readScan more } :=
      .line ht hst hs (by simp only [runLine, hm]; rfl)
    refine ⟨s.block.err, hexpand.trans ?_⟩
    have hsent : s.tx = s.tx ++ readCommand s.mode := by rw [hm]; exact (List.append_nil _).symm
    rw [State.reading, ← hsent]
    exact .line ht hst rfl rfl
  | passive =>
    have hexpand : Leads s { s with script := .openLink :: (opLine 0xC ++ readScan more) } :=
      .line ht hst hs (by simp only [runLine, hm]; rfl)
    refine ⟨.none, hexpand.trans (.trans (.line ht hst rfl rfl) ?_)⟩
    rw [State.reading, hm]
    exact .transmission ht hst sends_read rfl

/-! ### The beginning of SET_MODE (R182) -/

/-- What SET_MODE sends for the Mode it sets. -/
def modeCommand : Mode → List Byte
  | .passive => [0x42, 0x4D, 0xE1, 0x00, 0x00, 0x01, 0x70]
  | .active => [0x42, 0x4D, 0xE1, 0x00, 0x01, 0x01, 0x71]

/-- SET_MODE from its DRAIN on. -/
def setModeDrain (more : List Line) : List Line := opLine 0x4 ++ .check :: .closeLink :: .done :: more

/-- The machine `s` with SET_MODE's command sent. -/
def State.modeSent (s : State) (m : Mode) (lines : List Line) : State :=
  { s with
    mode := m, script := lines, linkOpen := true, tx := s.tx ++ modeCommand m, block := { s.block with err := .none } }

/-- SET_MODE up to its DRAIN. -/
theorem Leads.setMode_begins {m : Mode} (ht : s.turns = []) (hst : s.block.st = .idle)
    (hs : s.script = .pseudo (.setMode m) :: more) : Leads s (s.modeSent m (setModeDrain more)) := by
  obtain ⟨code, hsends, hexpand⟩ : ∃ code, Sends code (modeCommand m) ∧
      (Pseudo.setMode m).expand s.mode ++ more = .openLink :: .believe m :: (opLine code ++ setModeDrain more) := by
    cases m with
    | passive => exact ⟨0xA, sends_passive, rfl⟩
    | active => exact ⟨0xB, sends_active, rfl⟩
  have hlines : Leads s { s with script := .openLink :: .believe m :: (opLine code ++ setModeDrain more) } :=
    .line ht hst hs (by simp only [runLine, hexpand])
  exact hlines.trans (.trans (.line ht hst rfl rfl) (.trans (.line ht hst rfl rfl) (.transmission ht hst hsends rfl)))

end Sys2Proof.Machine
end

section
/-! The receiving operations of the sequences: run to their end, or as far as the bytes in RX lead them (R116). -/

namespace Sys2Proof.Machine

variable {s : State} {more : List Line} {q frame rest : List Byte} {n : Nat}

/-! ### To their end -/

/-- The machine after a VALIDATE of the frame in FB (R130, R132 to R134). -/
def State.judged (frame : List Byte) (s : State) : State :=
  { s with block := { s.block with
    sum := BitVec.ofNat 16 (natSum (frame.take 30))
    ckValid := true
    ckOk := decide (natSum (frame.take 30) % 256 = (frame.getD 31 0).toNat)
    err := if natSum (frame.take 30) % 256 = (frame.getD 31 0).toNat then .none else .checksum } }

theorem exec_validate_eq_judged (hst : s.block.st = .idle) (hcnt : s.block.fbCnt = 32) (hlen : frame.length = 32)
    (hread : ∀ k < 32, s.block.fb.read k = frame[k]?) : exec .validate s = .next (s.judged frame) :=
  let ⟨_, hverdict⟩ := validateGivesVerdict s hst
  hverdict hcnt frame hlen hread

section
variable (ht : s.turns = []) (hst : s.block.st = .idle)
include ht hst

/-- SYNC and its check, on a first marker within the bound. -/
theorem Leads.sync_found (hs : s.script = opLine 0x1 ++ .check :: more) (hrx : s.rx = q ++ rest)
    (hq : EndsAtFirstMarker q) (hbound : s.syncMax.toNat = 0 ∨ q.length ≤ s.syncMax.toNat) :
    Leads s { s with script := more, rx := rest, block := s.block.found q } := by
  have hexec := exec_sync_eq_scanning (s := s.awaitingCheck more) hst
  have hends := EndsAfter.scan_found (s := s.awaitingCheck more) (rest := rest) hq hbound
  rw [← hrx] at hends
  exact .operation_passes ht hst hs hexec hends rfl ht rfl

/-- SYNC and its check, on a bound without a marker. -/
theorem Leads.sync_timeout (hs : s.script = opLine 0x1 ++ .check :: more) (h0 : s.syncMax.toNat ≠ 0)
    (hn : s.syncMax.toNat ≤ s.rx.length) (hfree : ¬ [0x42, 0x4D] <:+: s.rx.take s.syncMax.toNat) :
    ∃ t : State, Leads s (t.failed more) ∧ t.block.st = .idle ∧ t.block.err = .timeout ∧ t.mode = s.mode ∧
      t.rx = s.rx.drop s.syncMax.toNat ∧ t.tx = s.tx := by
  have hexec := exec_sync_eq_scanning (s := s.awaitingCheck more) hst
  obtain ⟨t, hends, rfl⟩ := scanBoundGivesTimeout (s.awaitingCheck more) _ hst hexec h0 hn hfree
  exact ⟨_, .operation_fails ht hst hs hexec hends rfl ht Err.noConfusion, hst, rfl, rfl, rfl, rfl⟩

/-- COLLECT and its check, with thirty bytes there. -/
theorem Leads.collected (hs : s.script = opLine 0x2 ++ .check :: more) (hcnt : s.block.fbCnt = 2)
    (hlen : 30 ≤ s.rx.length) :
    ∃ fb : Memory,
      Leads s { s with
        script := more, rx := s.rx.drop 30, block := { s.block with fb := fb, fbCnt := 32, err := .none } } ∧
      ∀ a, fb.read a = if 2 ≤ a ∧ a ≤ 31 then s.rx[a - 2]? else s.block.fb.read a := by
  have hexec := exec_collect_eq_collecting (s := s.awaitingCheck more) hst hcnt
  obtain ⟨t, hends, hblock, -, -, hread⟩ := collectTakesThirtyBytes (s.awaitingCheck more) _ hst hcnt hexec hlen
  refine ⟨t.block.fb, ?_, hread⟩
  rw [hblock] at hends
  exact .operation_passes ht hst hs hexec hends rfl ht rfl

/-- DRAIN and its check, with eight bytes there. -/
theorem Leads.drained (hs : s.script = opLine 0x4 ++ .check :: more) (hlen : 8 ≤ s.rx.length) :
    ∃ ackb : Memory,
      Leads s { s with
        script := more, rx := s.rx.drop 8, block := { s.block with ackb := ackb, ackCnt := 8, err := .none } } ∧
      ∀ a, ackb.read a = if a ≤ 7 then s.rx[a]? else s.block.ackb.read a := by
  have hexec := drainAccepted (s.awaitingCheck more) hst
  obtain ⟨t, hends, hblock, hread⟩ := drainTakesEightBytes (s.awaitingCheck more) _ hst hexec hlen
  refine ⟨t.block.ackb, ?_, hread⟩
  rw [hblock] at hends
  exact .operation_passes ht hst hs hexec hends rfl ht rfl

/-- VALIDATE and its check, on a frame whose checksum holds. -/
theorem Leads.validate_passes (hs : s.script = opLine 0x3 ++ .check :: more) (hcnt : s.block.fbCnt = 32)
    (hlen : frame.length = 32) (hread : ∀ k < 32, s.block.fb.read k = frame[k]?)
    (hgood : natSum (frame.take 30) % 256 = (frame.getD 31 0).toNat) :
    Leads s { s.judged frame with script := more } :=
  .operation_passes (t := (s.awaitingCheck more).judged frame) ht hst hs
    (exec_validate_eq_judged hst hcnt hlen hread) (.of_idle hst) rfl ht (if_pos hgood)

/-- VALIDATE and its check, on a frame whose checksum does not hold. -/
theorem Leads.validate_fails (hs : s.script = opLine 0x3 ++ .check :: more) (hcnt : s.block.fbCnt = 32)
    (hlen : frame.length = 32) (hread : ∀ k < 32, s.block.fb.read k = frame[k]?)
    (hbad : natSum (frame.take 30) % 256 ≠ (frame.getD 31 0).toNat) :
    Leads s { s with
      script := abandon more, linkOpen := false, report := .failed .checksum, block := (s.judged frame).block } := by
  have herr : (s.judged frame).block.err = .checksum := if_neg hbad
  have hfails : Leads s (((s.awaitingCheck more).judged frame).failed more) :=
    .operation_fails ht hst hs (exec_validate_eq_judged (s := s.awaitingCheck more) hst hcnt hlen hread)
      (.of_idle hst) rfl ht (herr.trans_ne Err.noConfusion)
  rw [← herr]
  exact hfails

end

/-! ### As far as RX leads them -/

/-- Byte after byte, as long as each leads on. -/
theorem Leads.bytes (f : Nat → State) (ht : ∀ k < n, (f k).turns = [])
    (hbyte : ∀ k < n, takeByte (f k) = .next (f (k + 1))) : Leads (f 0) (f n) := by
  induction n with
  | zero => exact .refl _
  | succ n ih =>
    have hfirst := ih (fun k hk => ht k (hk.trans n.lt_succ_self)) (fun k hk => hbyte k (hk.trans n.lt_succ_self))
    exact hfirst.trans (.byte (ht n n.lt_succ_self) (hbyte n n.lt_succ_self))

/-- With no marker in RX and the bound not reached, a scan takes all of RX and goes on. -/
theorem Leads.scanning (ht : s.turns = []) (hfree : ¬ [0x42, 0x4D] <:+: s.rx)
    (hbound : s.syncMax.toNat = 0 ∨ s.rx.length < s.syncMax.toNat) :
    Leads (s.scanning [] s.rx) (s.scanning s.rx []) := by
  have hall := Leads.bytes (n := s.rx.length) (fun k => s.scanning (s.rx.take k) (s.rx.drop k)) (fun _ _ => ht) ?_
  · rwa [List.take_zero, List.drop_zero, List.take_length, List.drop_length] at hall
  · intro k hk
    have htake : s.rx.take k ++ [s.rx[k]] = s.rx.take (k + 1) := List.take_concat_get' s.rx k hk
    have hv : ¬ Completes (s.rx.take k) s.rx[k] := fun hv =>
      hfree ((htake ▸ marker_infix_concat.2 (.inl hv)).trans (List.take_prefix _ _).isInfix)
    have hon := takeByte_scanning_on (s := s) (s.rx.drop (k + 1)) hv (by rw [htake, List.length_take]; omega)
    rwa [htake, ← List.drop_eq_getElem_cons hk] at hon

theorem Leads.collecting (ht : s.turns = []) (hn : n < 30) (hrx : n ≤ s.rx.length) :
    Leads (s.collecting 0) (s.collecting n) := by
  refine .bytes s.collecting (fun _ _ => ht) fun k hk => ?_
  have hbyte := takeByte_collecting (s := s) (n := k) (by omega) (by omega)
  rwa [if_neg (by omega)] at hbyte

theorem Leads.draining (ht : s.turns = []) (hn : n < 8) (hrx : n ≤ s.rx.length) :
    Leads (s.draining 0) (s.draining n) := by
  refine .bytes s.draining (fun _ _ => ht) fun k hk => ?_
  have hbyte := takeByte_draining (s := s) (n := k) (by omega) (by omega)
  rwa [if_neg (by omega)] at hbyte

end Sys2Proof.Machine
end

section
/-! READ and SET_MODE to a good end, and READ to its CHECKSUM (R179, R182). -/

namespace Sys2Proof.Machine

variable {s : State} {b : Block} {more : List Line} {frame noise q rest : List Byte}

/-! ### The record (R140, R179) -/

/-- The channels of a frame, in order. -/
def frameChannels (frame : List Byte) : List Half :=
  (List.range 12).map fun i => be16 (frame.getD (4 + 2 * i) 0) (frame.getD (5 + 2 * i) 0)

theorem Block.channels_eq_map {i n : Nat} (f : Nat → Half)
    (h : ∀ k, i ≤ k → k < i + n → b.chData (BitVec.ofNat 4 k) = .ok (f k)) :
    b.channels i n = .ok ((List.range' i n).map f) := by
  induction n generalizing i with
  | zero => rfl
  | succ n ih =>
    have htail := ih (i := i + 1) fun k hk hk' => h k (by omega) (by omega)
    simp only [Block.channels, h i (Nat.le_refl i) (by omega), htail, List.range'_succ, List.map_cons]

/-- With a good verdict on a whole frame the record is the frame's channels. -/
theorem Block.record_of_frame (hok : b.ckOk = true) (hcnt : b.fbCnt = 32) (hlen : frame.length = 32)
    (hread : ∀ k < 32, b.fb.read k = frame[k]?) : b.record = .ok (frameChannels frame) := by
  have hbyte : ∀ k < 32, b.fbByte k = some (frame.getD k 0) := fun k hk => by
    refine Block.fbByte_eq_some.2 ⟨by rw [hcnt]; exact hk, ?_⟩
    rw [hread k hk, List.getElem?_eq_getElem (by omega), List.getD_eq_getElem]
  rw [frameChannels, List.range_eq_range']
  refine Block.channels_eq_map _ fun k _ (hk : k < 0 + 12) => Block.chData_eq_ok.2 ?_
  have hsel : (BitVec.ofNat 4 k).toNat = k := Nat.mod_eq_of_lt (by omega)
  rw [hsel]
  refine ⟨Block.chValid_iff.2 ⟨hok, by omega⟩,
    Block.fbHalf_eq_some.2 ⟨_, _, hbyte _ (by omega), hbyte _ (by omega), ?_⟩⟩
  rw [show 4 + 2 * k + 1 = 5 + 2 * k by omega]

/-! ### READ -/

theorem runLine_ret {chans : List Half} (wait : State) (h : s.block.record = .ok chans) :
    runLine .ret wait s = .next { s with report := .record chans } := by
  simp only [runLine, h]

/-- What READ reports of a frame: its channels, or CHECKSUM. -/
def readReport (frame : List Byte) : Report :=
  if natSum (frame.take 30) % 256 = (frame.getD 31 0).toNat then .record (frameChannels frame) else .failed .checksum

/-- READ from its COLLECT's end on. -/
theorem Leads.read_ends (ht : s.turns = []) (hst : s.block.st = .idle) (hs : s.script = readVerdict more)
    (hcnt : s.block.fbCnt = 32) (hlen : frame.length = 32) (hread : ∀ k < 32, s.block.fb.read k = frame[k]?) :
    ∃ b : Block, b.st = .idle ∧
      Leads s { s with script := more, linkOpen := false, report := readReport frame, block := b } := by
  let u : State := { s with linkOpen := false, script := opLine 0x3 ++ .check :: .ret :: more }
  have hclosed : Leads s u := .line ht hst hs rfl
  refine ⟨(s.judged frame).block, hst, hclosed.trans ?_⟩
  by_cases hgood : natSum (frame.take 30) % 256 = (frame.getD 31 0).toNat
  · have hrecord : (s.judged frame).block.record = .ok (frameChannels frame) :=
      Block.record_of_frame (decide_eq_true hgood) hcnt hlen hread
    rw [readReport, if_pos hgood]
    exact .trans (.validate_passes (s := u) ht hst rfl hcnt hlen hread hgood)
      (.line ht hst rfl (runLine_ret _ hrecord))
  · rw [readReport, if_neg hgood]
    exact .validate_fails (s := u) ht hst rfl hcnt hlen hread hgood

/-- READ up to its COLLECT, on a first marker within the bound. -/
theorem Leads.read_finds (ht : s.turns = []) (hst : s.block.st = .idle) (hs : s.script = .pseudo .read :: more)
    (hrx : s.rx = q ++ rest) (hq : EndsAtFirstMarker q) (hbound : s.syncMax.toNat = 0 ∨ q.length ≤ s.syncMax.toNat) :
    Leads s (s.reading (s.block.found q) rest (readFrameBody more)) := by
  obtain ⟨e, hbegun⟩ := Leads.read_begins ht hst hs
  let u : State := s.reading { s.block with err := e } s.rx (readScan more)
  exact hbegun.trans (.sync_found (s := u) ht hst rfl hrx hq hbound)

/-- The last two bytes of the noise and the marker are the marker. -/
theorem EndsAtFirstMarker.take_two (h : EndsAtFirstMarker (noise ++ frame.take 2)) (hlen : frame.length = 32) :
    frame.take 2 = [0x42, 0x4D] := by
  obtain ⟨⟨l, hl⟩, _⟩ := h
  obtain ⟨_, hmarker⟩ := List.append_inj' hl (by simp [hlen])
  exact hmarker.symm

/-- FB holds the frame when it holds the marker and, behind it, the rest of the frame. -/
theorem Memory.read_frame {m fb : Memory} (hlen : frame.length = 32) (hmarker : frame.take 2 = [0x42, 0x4D])
    (hread : ∀ a, fb.read a =
      if 2 ≤ a ∧ a ≤ 31 then (frame.drop 2 ++ rest)[a - 2]? else ((m.write 0 0x42).write 1 0x4D).read a) :
    ∀ k < 32, fb.read k = frame[k]? := by
  intro k hk
  rw [hread]
  by_cases h2 : 2 ≤ k
  · rw [if_pos ⟨h2, by omega⟩, List.getElem?_append_left (by rw [List.length_drop]; omega), List.getElem?_drop,
      Nat.add_sub_cancel' h2]
  · rw [if_neg (fun h => h2 h.1), Memory.read_marker, ← List.getElem?_take_of_lt (Nat.lt_of_not_le h2), hmarker]
    obtain rfl | rfl : k = 0 ∨ k = 1 := by omega
    · rfl
    · rfl

/-- READ up to the end of its COLLECT, on noise and a frame: the frame stands in FB. -/
theorem Leads.read_collects (ht : s.turns = []) (hst : s.block.st = .idle) (hs : s.script = .pseudo .read :: more)
    (hrx : s.rx = noise ++ frame ++ rest) (hlen : frame.length = 32) (hend : EndsAtFirstMarker (noise ++ frame.take 2))
    (hbound : s.syncMax.toNat = 0 ∨ noise.length + 2 ≤ s.syncMax.toNat) :
    ∃ b : Block, b.st = .idle ∧ b.fbCnt = 32 ∧ (∀ k < 32, b.fb.read k = frame[k]?) ∧
      Leads s (s.reading b rest (readVerdict more)) := by
  have hqlen : (noise ++ frame.take 2).length = noise.length + 2 := by simp [hlen]
  have hsplit : s.rx = (noise ++ frame.take 2) ++ (frame.drop 2 ++ rest) := by
    rw [hrx, List.append_assoc noise, List.append_assoc noise, ← List.append_assoc (frame.take 2),
      List.take_append_drop]
  have hfound := Leads.read_finds ht hst hs hsplit hend (hqlen ▸ hbound)
  let u : State := s.reading (s.block.found (noise ++ frame.take 2)) (frame.drop 2 ++ rest) (readFrameBody more)
  have hrest : u.rx.drop 30 = rest := List.drop_left' (by rw [List.length_drop, hlen])
  obtain ⟨fb, hcollected, hread⟩ := Leads.collected (s := u) ht rfl rfl rfl (by simp [u, State.reading, hlen])
  rw [hrest] at hcollected
  exact ⟨_, rfl, rfl, Memory.read_frame hlen (hend.take_two hlen) hread, hfound.trans hcollected⟩

/-- Settles O55: the frame's marker ends the scan, COLLECT takes the rest of the frame, and VALIDATE judges it. -/
theorem readReturnsTheFramesChannels : Obligations.ReadReturnsTheFramesChannels := by
  intro s noise frame rest ht hst hs hrx hlen hend hbound
  obtain ⟨b, hidle, hcnt, hread, hcollected⟩ := Leads.read_collects ht hst hs hrx hlen hend hbound
  obtain ⟨b', hidle', hended⟩ := Leads.read_ends (s := s.reading b rest (readVerdict [])) ht hidle rfl hcnt hlen hread
  obtain ⟨n, hrun⟩ := hcollected.trans hended
  exact ⟨n, _, hrun, rfl, hidle', rfl, rfl, rfl, rfl⟩

/-- Settles O56: the command is sent, and DRAIN takes the eight bytes. -/
theorem setModeSendsAndDrains : Obligations.SetModeSendsAndDrains := by
  intro s m ack rest ht hst hs hrx hlen
  have hbegun := Leads.setMode_begins ht hst hs
  let u : State := s.modeSent m (setModeDrain [])
  have hurx : u.rx = ack ++ rest := hrx
  obtain ⟨ackb, hdrained, hread⟩ := Leads.drained (s := u) (more := [.closeLink, .done]) ht hst rfl
    (by rw [hurx, List.length_append]; omega)
  have hended := hdrained.trans (.trans (.line ht hst rfl rfl) (.line ht hst rfl rfl))
  obtain ⟨n, hrun⟩ := hbegun.trans hended
  refine ⟨n, _, hrun, rfl, rfl, ?_, rfl, rfl, fun k hk => ?_, ?_⟩
  · exact hurx ▸ List.drop_left' hlen
  · calc _ = ackb.read k := if_pos hk
      _ = u.rx[k]? := by rw [hread, if_pos (Nat.le_of_lt_succ hk)]
      _ = ack[k]? := by rw [hurx, List.getElem?_append_left (hlen ▸ hk)]
  · cases m <;> rfl

end Sys2Proof.Machine
end

section
/-! READ and SET_MODE to a TIMEOUT: by the bound of a scan, or by an Abort on a silent line (R105, R170, R179, R182). -/

namespace Sys2Proof.Machine

variable {s w : State} {lines more : List Line}

/-! ### How a sequence fails -/

theorem State.failed_onTimeout (hidle : s.block.st = .idle) (herr : s.block.err = .timeout)
    (hmore : abandon lines = more) : (s.failed lines).FailedOnTimeout more :=
  ⟨hidle, herr, rfl, congrArg Report.failed herr, hmore⟩

/-- The machine after an Abort of an operation that a check follows, when the check has been made. -/
def State.abortFailed (more : List Line) (s : State) : State :=
  State.failed more { s with turns := [], block := s.block.abort }

theorem State.abortFailed_onTimeout (hst : s.block.st ≠ .idle) (hmore : abandon lines = more) :
    (s.abortFailed lines).FailedOnTimeout more :=
  State.failed_onTimeout s.block.abort_st (Block.abort_err hst) hmore

/-- An Abort ends the wait, and the check finds its TIMEOUT (R170, R183). -/
theorem run_abortFailed (ht : s.turns = [.present .abort []]) (hst : s.block.st ≠ .idle)
    (hs : s.script = .await :: .check :: more) : Sys2Proof.core.run 3 s = .next (s.abortFailed more) := by
  let u : State := { s with turns := [], block := s.block.abort }
  have hidle : u.block.st = .idle := s.block.abort_st
  have herr : u.block.err = .timeout := Block.abort_err hst
  have habort : step s = .next u := step_present ht rfl
  have hawait : step u = .next { u with script := .check :: more } := step_await rfl hidle hs
  have hcheck : step { u with script := .check :: more } = .next (s.abortFailed more) :=
    step_check_fails rfl hidle rfl (by rw [herr]; exact Err.noConfusion)
  calc Sys2Proof.core.run 3 s = Sys2Proof.core.run 2 u := run_step_add habort 2
    _ = Sys2Proof.core.run 1 { u with script := .check :: more } := run_step_add hawait 1
    _ = .next (s.abortFailed more) := run_one.trans hcheck

/-- A machine that waits for a receiving operation with RX used up fails when an Abort is fired. -/
theorem AbortsFrom.of_waiting (h : Leads s w) (hst : w.block.st ≠ .idle) (hrx : w.rx = []) (ht : w.turns = [])
    (hs : w.script = .await :: .check :: more) : AbortsFrom s w (w.abortFailed more) := by
  obtain ⟨hwaits, -⟩ := silentLineBlocks
  have hself : Sys2Proof.core.run 1 w = .next w := by
    refine hwaits w hst hrx ht (fun l rest hl => ?_) 1
    obtain ⟨rfl, _⟩ := List.cons.inj (hs.symm.trans hl)
    exact .inr (.inl rfl)
  exact ⟨hrx, run_one.symm.trans hself, h, 3, run_abortFailed rfl hst hs⟩

/-! ### READ and SET_MODE on a silent line -/

theorem Block.scanned_scanning (b : Block) (p : List Byte) :
    (b.scanned p).st = .hunt ∨ (b.scanned p).st = .got42 := by
  simp only [Block.scanned]
  split
  · exact .inr rfl
  · exact .inl rfl

section
variable (ht : s.turns = []) (hst : s.block.st = .idle)
include ht hst

/-- A scan that no marker and no bound ends waits in HUNT or GOT42. -/
theorem Leads.sync_waits (hs : s.script = opLine 0x1 ++ .check :: more) (hfree : ¬ [0x42, 0x4D] <:+: s.rx)
    (hbound : s.syncMax.toNat = 0 ∨ s.rx.length < s.syncMax.toNat) :
    Leads s ((s.awaitingCheck more).scanning s.rx []) := by
  have hbegun : Leads s ((s.awaitingCheck more).scanning [] s.rx) :=
    .of_step ((step_issue ht hst hs).trans (exec_sync_eq_scanning (s := s.awaitingCheck more) hst))
  exact hbegun.trans (.scanning (s := s.awaitingCheck more) ht hfree hbound)

/-- A COLLECT short of thirty bytes waits with all of RX taken. -/
theorem Leads.collect_waits (hs : s.script = opLine 0x2 ++ .check :: more) (hcnt : s.block.fbCnt = 2)
    (hlen : s.rx.length < 30) : Leads s ((s.awaitingCheck more).collecting s.rx.length) := by
  have hbegun : Leads s ((s.awaitingCheck more).collecting 0) :=
    .of_step ((step_issue ht hst hs).trans (exec_collect_eq_collecting (s := s.awaitingCheck more) hst hcnt))
  exact hbegun.trans (.collecting (s := s.awaitingCheck more) ht hlen le_rfl)

/-- A DRAIN short of eight bytes waits with all of RX taken. -/
theorem Leads.drain_waits (hs : s.script = opLine 0x4 ++ .check :: more) (hlen : s.rx.length < 8) :
    Leads s ((s.awaitingCheck more).draining s.rx.length) := by
  have hbegun : Leads s ((s.awaitingCheck more).draining 0) :=
    .of_step ((step_issue ht hst hs).trans (drainAccepted (s.awaitingCheck more) hst))
  exact hbegun.trans (.draining (s := s.awaitingCheck more) ht hlen le_rfl)

end

/-- Settles O59: the Abort of a waiting operation, the bound of a scan, and the three silent lines. -/
theorem sessionsFailOnTimeout : Obligations.SessionsFailOnTimeout := by
  refine ⟨fun s more ht hst hs => ?_, fun s more ht hst hs => ?_, fun s m more ht hst hs hlen => ?_⟩
  · exact ⟨_, run_abortFailed ht hst hs, State.abortFailed_onTimeout hst rfl, rfl, rfl, rfl⟩
  · obtain ⟨e, hbegun⟩ := Leads.read_begins ht hst hs
    let u : State := s.reading { s.block with err := e } s.rx (readScan more)
    refine ⟨fun h0 hn hfree => ?_, fun hfree hbound => ?_, fun n hn hshort hend hbound => ?_⟩
    · obtain ⟨t, hfails, hidle, herr, hmode, hrx, htx⟩ := Leads.sync_timeout (s := u) ht hst rfl h0 hn hfree
      obtain ⟨n, hrun⟩ := hbegun.trans hfails
      exact ⟨n, _, hrun, State.failed_onTimeout hidle herr rfl, hmode, hrx, htx⟩
    · let w : State := (u.awaitingCheck (readFrameBody more)).scanning s.rx []
      have hwaits : Leads s w := hbegun.trans (.sync_waits (s := u) ht hst rfl hfree hbound)
      have hbusy : w.block.st ≠ .idle := u.block.scanned_busy s.rx
      exact ⟨w, _, .of_waiting hwaits hbusy rfl ht rfl, u.block.scanned_scanning s.rx,
        State.abortFailed_onTimeout hbusy rfl, rfl, rfl⟩
    · have hfound := Leads.read_finds ht hst hs (List.take_append_drop n s.rx).symm hend
        ((List.length_take_of_le hn).symm ▸ hbound)
      let v : State := s.reading (s.block.found (s.rx.take n)) (s.rx.drop n) (readFrameBody more)
      have hlen : v.rx.length < 30 := by simp only [v, State.reading, List.length_drop]; omega
      let w : State := (v.awaitingCheck (readVerdict more)).collecting v.rx.length
      have hwaits : Leads s w := hfound.trans (.collect_waits (s := v) ht rfl rfl rfl hlen)
      have hbusy : w.block.st ≠ .idle := St.noConfusion
      exact ⟨w, _, .of_waiting hwaits hbusy List.drop_length ht rfl, rfl,
        State.abortFailed_onTimeout hbusy rfl, rfl, rfl, rfl⟩
  · let u : State := s.modeSent m (setModeDrain more)
    let w : State := (u.awaitingCheck (.closeLink :: .done :: more)).draining s.rx.length
    have hwaits : Leads s w :=
      (Leads.setMode_begins ht hst hs).trans (.drain_waits (s := u) ht hst rfl hlen)
    have hcnt : w.block.ackCnt.toNat = s.rx.length := Nat.mod_eq_of_lt (by omega)
    have hbusy : w.block.st ≠ .idle := St.noConfusion
    refine ⟨w, _, .of_waiting hwaits hbusy List.drop_length ht rfl, rfl,
      State.abortFailed_onTimeout hbusy rfl, rfl, hcnt, ?_⟩
    cases m <;> rfl

end Sys2Proof.Machine
end

section
/-! The errors of spec/60_exceptions.md: where each code of `ERR` comes from, and that an accepted code forgets the
last one (R201, R202, R205). -/

namespace Sys2Proof.Machine

variable {s t : State} {i : Instr}

/-- Settles O45: the first act of an acceptance overwrites `ERR`. -/
theorem earlierErrorHasNoInfluence : Obligations.EarlierErrorHasNoInfluence := by
  intro i s e hc hst
  calc exec i { s with block := { s.block with err := e } }
      = opAct i (s.mapBlock Block.clearErr) := exec_op_of_idle hc hst
    _ = exec i s := (exec_op_of_idle hc hst).symm

/-- What an operation can do to `ERR` once accepted: leave it, raise SEQ, or, VALIDATE alone, raise CHECKSUM. -/
theorem opAct_err (hc : i.channel = .op) (h : opAct i s = .next t) :
    t.block.err = s.block.err ∨ t.block.err = .seq ∨ (i = .validate ∧ t.block.err = .checksum) := by
  cases i <;> simp only [Instr.channel, reduceCtorEq] at hc
  case collect =>
    simp only [opAct, collectAct] at h
    split at h <;> cases h
    · exact .inl rfl
    · exact .inr (.inl rfl)
  case validate =>
    rcases validateAct_cases h with ⟨_, rfl⟩ | ⟨_, _, _, _, _, ⟨_, rfl⟩ | ⟨_, rfl⟩⟩
    · exact .inr (.inl rfl)
    · exact .inl rfl
    · exact .inr (.inr ⟨rfl, rfl⟩)
  case sync | drain | txSleep | txWake | txPassive | txActive | txRead => cases h; exact .inl rfl
  all_goals cases h; exact .inr (.inl rfl)

/-- What an instruction can do to `ERR` (R200): leave it, clear it, raise SEQ, or raise the error of VALIDATE or of an
Abort. -/
theorem exec_err (h : exec i s = .next t) :
    t.block.err = s.block.err ∨ t.block.err = .none ∨ t.block.err = .seq ∨
      (i = .validate ∧ t.block.err = .checksum) ∨ (i = .abort ∧ s.block.st ≠ .idle ∧ t.block.err = .timeout) := by
  rcases exec_cases i s with ⟨hc, e⟩ | ⟨rfl, e⟩ | ⟨rfl, e⟩ | ⟨_, e⟩ | ⟨_, e⟩
  · rcases accept_cases (e.symm.trans h) with ⟨_, hact⟩ | ⟨_, rfl⟩
    · rcases opAct_err hc hact with hnone | hseq | hval
      · exact .inr (.inl hnone)
      · exact .inr (.inr (.inl hseq))
      · exact .inr (.inr (.inr (.inl hval)))
    · exact .inl rfl
  · cases h
    by_cases hst : s.block.st = .idle
    · exact .inl (congrArg Block.err (Block.abort_of_idle hst))
    · exact .inr (.inr (.inr (.inr ⟨rfl, hst, Block.abort_err hst⟩)))
  · cases h
    exact .inr (.inl rfl)
  all_goals cases e.symm.trans h; exact .inl (by simp)

/-- What a byte can do to `ERR`: leave it, or end a scan at its bound (R105). -/
theorem Block.rxByte_err {bound : ScanBound} {v : Byte} {b b' : Block} (h : b.rxByte bound v = .ok b') :
    b'.err = b.err ∨
      ((b.st = .hunt ∨ b.st = .got42) ∧ bound.toNat ≠ 0 ∧ b'.scanCnt.toNat = bound.toNat ∧ b'.fbCnt = b.fbCnt ∧
        b'.st = .idle ∧ b'.err = .timeout) := by
  rcases Block.rxByte_cases h with ⟨_, rfl⟩ | ⟨hst, rfl⟩ | ⟨_, _, rfl⟩ | ⟨_, _, rfl⟩ | ⟨_, _, rfl⟩
  case inr.inl =>
    rcases Block.checkBound_cases bound (b.countByte.goto (if v = Config.marker0 then .got42 else .hunt))
      with ⟨h0, hcnt, e⟩ | ⟨_, e⟩ <;> rw [e]
    · exact .inr ⟨hst.imp_right And.left, h0, hcnt, rfl, rfl, rfl⟩
    · exact .inl rfl
  all_goals exact .inl rfl

/-- The same of a taking of a byte, which without a byte or in IDLE is nothing at all. -/
theorem takeByte_err (h : takeByte s = .next t) :
    t.block.err = s.block.err ∨
      ((s.block.st = .hunt ∨ s.block.st = .got42) ∧ s.syncMax.toNat ≠ 0 ∧ t.block.scanCnt.toNat = s.syncMax.toNat ∧
        t.block.fbCnt = s.block.fbCnt ∧ t.block.st = .idle ∧ t.block.err = .timeout) := by
  rcases takeByte_cases h with ⟨_, rfl⟩ | ⟨_, _, _, _, _, hb, rfl⟩
  · exact .inl rfl
  · exact Block.rxByte_err hb

/-- Settles O43: by what can happen to `ERR`, and by VALIDATE's verdict on a whole frame. -/
theorem checksumHasOneCause : Obligations.ChecksumHasOneCause := by
  refine ⟨fun i s t h hne hbad => ?_, fun s t h hne hbad => ?_, fun s t total ck hst hcnt hsum hck h => ?_⟩
  · have hcause := exec_err h
    simp only [hbad, hne.symm, reduceCtorEq, and_true, and_false, or_false, false_or] at hcause
    exact hcause
  · have hcause := takeByte_err h
    simp [hbad, hne.symm] at hcause
  · have hbyte : s.block.fbByte 31 = some ck := Block.fbByte_eq_some.2 ⟨by simp [hcnt], hck⟩
    cases (exec_validate_of_frame hst hcnt hsum hbyte).symm.trans h
    rw [ne_eq, ← sumMatches_iff]
    cases hmatch : sumMatches total ck <;> simp [Block.judged, hmatch]

/-- Settles O44: by what can happen to `ERR`. -/
theorem timeoutHasTwoCauses : Obligations.TimeoutHasTwoCauses := by
  refine ⟨fun i s t h hne htime => ?_, fun s t h hne htime => ?_⟩
  · have hcause := exec_err h
    simp only [htime, hne.symm, reduceCtorEq, and_true, and_false, false_or] at hcause
    exact hcause
  · have hcause := takeByte_err h
    simp only [htime, hne.symm, and_true, false_or] at hcause
    exact hcause

end Sys2Proof.Machine
end

section
/-! A clock period (R207): the events sampled are turns in a fixed order, and turns listed one behind the other do one
after the other what each does alone. -/

namespace Sys2Proof.Machine

variable {s u v w : State} {i : Instr} {turn : Turn} {l l' rest : List Turn} {p : Sampled}

/-- The turns `l`, whatever is listed behind them, lead from `u` to `v`, and list no turn themselves. -/
structure TurnsLead (l : List Turn) (u v : State) : Prop where
  turns : v.turns = u.turns
  leads : ∀ later, Leads { u with turns := l ++ later } { v with turns := later }

theorem TurnsLead.nil (u : State) : TurnsLead [] u u := ⟨rfl, fun _ => .refl _⟩

theorem TurnsLead.append (h : TurnsLead l u v) (h' : TurnsLead l' v w) : TurnsLead (l ++ l') u w := by
  refine ⟨h'.turns.trans h.turns, fun later => ?_⟩
  rw [List.append_assoc]
  exact (h.leads (l' ++ later)).trans (h'.leads later)

theorem TurnsLead.single (hturns : v.turns = u.turns)
    (h : ∀ later, runTurn turn { u with turns := later } = .next { v with turns := later }) : TurnsLead [turn] u v :=
  ⟨hturns, fun later => .of_step (h later)⟩

/-- A turn that runs an instruction. -/
theorem TurnsLead.instr (hturn : ∀ s, runTurn turn s = exec i s) (h : exec i u = .next v) : TurnsLead [turn] u v :=
  .single (exec_turns h) fun later => (hturn _).trans (exec_withTurns later h)

/-- Abort, if sampled. -/
theorem TurnsLead.abort {sampled : Bool} (h : (if sampled then exec .abort u else .next u) = .next v) :
    TurnsLead (if sampled then [.present .abort []] else []) u v := by
  cases sampled with
  | true => exact .instr (i := .abort) (fun _ => rfl) h
  | false => cases h; exact .nil u

/-- RxByte, if sampled. -/
theorem TurnsLead.byte {sampled : Bool} (h : (if sampled then takeByte u else .next u) = .next v) :
    TurnsLead (if sampled then [.take] else []) u v := by
  cases sampled with
  | true => exact .single (takeByte_turns h) fun later => takeByte_withTurns later h
  | false => cases h; exact .nil u

/-- The turn of a code, if one was sampled. -/
def codeTurn (op : Option (BitVec 4)) : List Turn :=
  (op.map fun code => Turn.present .op [code.setWidth 8]).toList

theorem runTurn_code (code : BitVec 4) (s : State) :
    runTurn (.present .op [code.setWidth 8]) s = exec (decodeOp code) s :=
  runCode_eq code s

/-- OpAccept of the code, if one was sampled. -/
theorem TurnsLead.code {op : Option (BitVec 4)}
    (h : (match op with
      | some code => exec (decodeOp code) u
      | none => .next u) = .next v) : TurnsLead (codeTurn op) u v := by
  cases op with
  | some code => exact .instr (runTurn_code code) h
  | none => cases h; exact .nil u

/-- A period begins with the listing of its turns. -/
theorem step_period (ht : s.turns = .period p :: rest) : step s = .next { s with turns := p.order ++ rest } :=
  step_turn ht

/-- A period whose first turns `l` lead to `v` leads there with its other turns still to come. -/
theorem Leads.period (ht : s.turns = .period p :: rest) (horder : p.order = l ++ l')
    (h : TurnsLead l { s with turns := rest } v) : Leads s { v with turns := l' ++ rest } := by
  have hlisted : Leads s { s with turns := l ++ (l' ++ rest) } := by
    rw [← List.append_assoc, ← horder]
    exact .of_step (step_period ht)
  exact hlisted.trans (h.leads (l' ++ rest))

/-- Reset comes first and alone. -/
theorem run_period_of_reset (ht : s.turns = .period p :: rest) (hreset : p.reset = true) :
    Sys2Proof.core.run 2 s = .next { s with turns := rest, block := Block.reset } := by
  have horder : p.order = [.present .reset []] := if_pos hreset
  have hlisted : step s = .next { s with turns := .present .reset [] :: rest } := by
    rw [step_period ht, horder]
    rfl
  exact (run_step_add hlisted 1).trans run_one

/-- An Abort leaves no operation that could take the byte sampled with it: the code is all that is still to come. -/
theorem Leads.period_abort (ht : s.turns = .period p :: rest) (hreset : p.reset = false) (habort : p.abort = true) :
    Leads s { s with block := s.block.abort, turns := codeTurn p.op ++ rest } := by
  let u : State := { s with turns := rest, block := s.block.abort }
  have hbyte : (if p.rx then takeByte u else .next u) = .next u := by
    rw [noByteTakenWithoutRxReady u (.inl s.block.abort_st), ite_self]
  have hevents := (TurnsLead.abort (u := { s with turns := rest }) (v := u) (if_pos habort)).append (.byte hbyte)
  exact .period ht ((Sampled.order_of_no_reset hreset).trans (List.append_assoc ..).symm) hevents

/-- Settles O54: Reset alone; else the events sampled as `TurnsLead` joins them; after an Abort, the code. -/
theorem periodOrder : Obligations.PeriodOrder := by
  refine ⟨fun s p rest => run_period_of_reset, fun s s1 s2 s3 p rest ht hreset habort hbyte hop => ?_,
    fun s p rest ht hreset habort hst => ?_⟩
  · have hevents := (TurnsLead.abort habort).append ((TurnsLead.byte hbyte).append (.code hop))
    obtain rfl : s3.turns = rest := hevents.turns
    exact Leads.period (l' := []) ht ((Sampled.order_of_no_reset hreset).trans (List.append_nil _).symm) hevents
  · obtain ⟨n, hrun⟩ := Leads.period_abort ht hreset habort
    refine ⟨n, _, hrun, Block.abort_err hst, s.block.abort_st, rfl, fun code hcode => ?_, fun hnone => ?_⟩
    · rw [run_add hrun 1, run_one, hcode]
      exact runTurn_code code _
    · rw [hnone]
      rfl

end Sys2Proof.Machine
end

section
/-! Reset, which leaves no byte with a value (R230), and the byte that waits where it can be taken (R44, R246). -/

namespace Sys2Proof.Machine

variable {s t : State} {v : Byte} {rest : List Byte}

/-! ### Reset -/

theorem exec_reset (s : State) : exec .reset s = .next { s with block := Block.reset } := rfl

@[simp] theorem Block.reset_status : Block.reset.status = 0 := by decide

@[simp] theorem Block.reset_fbByte (a : Nat) : Block.reset.fbByte a = none := if_neg (Nat.not_lt_zero a)

@[simp] theorem Block.reset_ackByte (a : Nat) : Block.reset.ackByte a = none := if_neg (Nat.not_lt_zero a)

/-- Settles O16: Reset puts `Block.reset` in place of the block, whatever that was. -/
theorem resetLeavesItsValues : Obligations.ResetLeavesItsValues :=
  fun s => ⟨Block.reset, exec_reset s, Block.reset_st, Block.reset_fbCnt, Block.reset_ackCnt, Block.reset_scanCnt,
    Block.reset_sum, Block.reset_ckValid, Block.reset_ckOk, Block.reset_err, Block.reset_status,
    fun a => ⟨Block.reset_fbByte a, Block.reset_ackByte a⟩⟩

/-! ### A byte that waits -/

theorem rxEnabled_of_busy (hrx : s.rx = v :: rest) (hbusy : s.block.st ≠ .idle) : s.rxEnabled = true := by
  simp [State.rxEnabled, rxReady_of_busy hbusy, hrx]

/-- A busy block that answers has taken the oldest byte of RX. -/
theorem takeByte_rx_of_busy (hrx : s.rx = v :: rest) (hbusy : s.block.st ≠ .idle) (h : takeByte s = .next t) :
    t.rx = rest := by
  rcases takeByte_cases h with ⟨hnone, _⟩ | ⟨_, _, _, hrx', _, _, rfl⟩
  · simp [hrx, rxReady_of_busy hbusy] at hnone
  · exact (List.cons.inj (hrx'.symm.trans hrx)).2

/-- Settles O53: with no turn listed the byte comes before the host. -/
theorem waitingByteIsTaken : Obligations.WaitingByteIsTaken := by
  intro s v rest hturns hrx hbusy
  have hstep : step s = takeByte s := step_byte hturns (rxEnabled_of_busy hrx hbusy)
  exact ⟨hstep, fun t h => takeByte_rx_of_busy hrx hbusy (hstep.symm.trans h)⟩

end Sys2Proof.Machine
end
